-- ==== Sys2Proof/Word.lean ====
section
/-! DEFINITION. The word types of the block: a byte, a 16-bit word and the 8-byte Packet (00_scope.md R15, 30_encoding.md R80). -/

namespace Sys2Proof

/-- "A *byte* is 8 bits, an unsigned value 0 to 255" (00_scope.md R15). -/
abbrev Byte := BitVec 8

/-- "A *word16* is 16 bits, unsigned" (00_scope.md R15). -/
abbrev Word16 := BitVec 16

/-- A Packet is exactly 8 bytes: destination, type, payload[0..4), checksum low, checksum high (30_encoding.md R80). -/
abbrev Packet := Vector Byte 8

end Sys2Proof
end

