-- ==== Sys2Proof/Config.lean ====
section
/-! DEFINITION. What is fixed for one built block: the constants of 00_scope.md R6, the parameters of R7 (the hard-wired
CONFIG table of 10_state.md R45), the shape of the input ports, and the free values (opaque constants). -/

namespace Sys2Proof

/-- `SENTINEL` (00_scope.md R6, 30_encoding.md R84). -/
def sentinel : Byte := 0xFF
/-- `SENTINEL_COUNT` (00_scope.md R6). -/
def sentinelCount : Nat := 2
/-- `PACKET_SIZE` (00_scope.md R6). -/
def packetSize : Nat := 8
/-- `CRC_COVER`: leading Packet bytes the checksum covers (00_scope.md R6). -/
def crcCover : Nat := 6
/-- `CODEC_MAX_LEN` (00_scope.md R6, 30_encoding.md R90). -/
def codecMaxLen : Nat := 10

/-- The operand part of the command port: `cmd_dest_i`, `cmd_type_i`, `cmd_payload_i[0..4)`, `cmd_value_i` (10_state.md R43). -/
structure CmdOperands where
  dest : Byte
  msgType : Byte
  payload : Vector Byte 4
  value : Byte
  deriving DecidableEq, Repr, Inhabited

/-- The input ports one step samples (10_state.md R42, R43).  `rxAvail` and `rxData` are the answer `TryRecv()` would give,
`txReady` the answer `TrySend(b)` would give for any `b`. -/
structure Ports where
  rst : Bool
  abort : Bool
  rxAvail : Bool
  rxData : Byte
  txReady : Bool
  cmd : BitVec 2
  operands : CmdOperands
  deriving DecidableEq, Repr, Inhabited

/-- Which `Crc16Update` the block is built with (00_scope.md R7): the reference of 43_crc_validator.md R177, the alternative
of R178, or another one about which nothing is known (log 8). -/
inductive CrcEngine where
  | msbFirst1021
  | lsbFirstA001
  | other (k : Nat)
  deriving DecidableEq, Repr

/-- Which `Encode` and `Decode` the block is built with (00_scope.md R7): the reference codec of 30_encoding.md R91 and R92, or
another pair about which nothing is known (log 8). -/
inductive Codec where
  | reference
  | other (k : Nat)
  deriving DecidableEq, Repr

/-- The parameters of 00_scope.md R7: hard-wired, read-only, changed by no step (R8, 10_state.md R45). -/
structure Config where
  /-- `MAX_BODY_LEN` -/
  maxBodyLen : Nat
  /-- `MAX_SEND_ATTEMPTS` -/
  maxSendAttempts : Nat
  /-- `ACK_OK` -/
  ackOk : Byte
  /-- `ACK_CRC_FAIL` -/
  ackCrcFail : Byte
  /-- `ACK_WAIT_POLLS`; `none` is the setting `UNBOUNDED` -/
  ackWaitPolls : Option Nat
  /-- `SENDER_ACK_WAIT_YIELD` -/
  senderAckWaitYield : Bool
  /-- `CRC_INIT` -/
  crcInit : Word16
  /-- `Crc16Update` -/
  crc : CrcEngine
  /-- `Encode`, `Decode` -/
  codec : Codec
  /-- `DEFAULT_DEST` -/
  defaultDest : Byte
  deriving DecidableEq, Repr

/-- The reference configuration: the "Reference value" column of 00_scope.md R7, which is the spec's own choice. -/
def Config.reference : Config where
  maxBodyLen := 16
  maxSendAttempts := 3
  ackOk := 0x00
  ackCrcFail := 0x01
  ackWaitPolls := some 4
  senderAckWaitYield := false
  crcInit := 0x0000
  crc := .msbFirst1021
  codec := .reference
  defaultDest := 0x00

/-- The port values of a step for which the state lists no sample, by the number of the step: a free value (log 1). -/
opaque Config.drawPorts : Nat → Ports

/-- The byte a reset step leaves in element `index` of buffer `buffer`, by the number of the step: a free value (log 4). -/
opaque Config.resetByte : (draw buffer index : Nat) → Byte

/-- `Crc16Update` of a block built with neither function the spec gives: a free function (log 8). -/
opaque Config.otherCrc16Update : Nat → Word16 → Byte → Word16

/-- `Encode` of a block built with another codec: a free function; the length is at most `CODEC_MAX_LEN` by its type (log 8). -/
opaque Config.otherEncode : Nat → Packet → Vector Byte 10 × Fin 11

/-- `Decode` of a block built with another codec: a free function; `valid_len` is at most 8 by its type (30_encoding.md R93 (d)). -/
opaque Config.otherDecode : Nat → List Byte → Packet × Fin 9

end Sys2Proof
end

