-- ==== Sys2Proof/Machine/Codec.lean ====
section
/-! DEFINITION. The packing codec (00_scope.md R12, 30_encoding.md R91 to R93). -/

namespace Sys2Proof

/-- The byte whose bits 7 down to 0 are `bit 0` to `bit 7`: most significant bit first. -/
def byteMsbFirst (bit : Nat → Bool) : Byte := BitVec.ofFnLE fun j : Fin 8 => bit (7 - j.val)

/-- Bit `k` of the 64-bit string of a Packet: byte 0 first, each byte most significant bit first; `B[k] = 0` for `k >= 64`
(30_encoding.md R91). -/
def packetBit (p : Packet) (k : Nat) : Bool := ((p.toList[k / 8]?).getD 0).getMsbD (k % 8)

/-- `enc[i]`: group `i` of 7 bits, with bit 7 of the byte 0 (30_encoding.md R91). -/
def encodedByte (p : Packet) (i : Nat) : Byte :=
  byteMsbFirst fun t => if t = 0 then false else packetBit p (7 * i + (t - 1))

/-- The reference `Encode`: always 10 bytes (30_encoding.md R91). -/
def referenceEncode (p : Packet) : Vector Byte 10 × Fin 11 := (Vector.ofFn fun i : Fin 10 => encodedByte p i.val, 10)

/-- Bit `k` of the string of 7 bits per body byte, bit 7 of each body byte ignored (30_encoding.md R92). -/
def bodyBit (src : List Byte) (k : Nat) : Bool := ((src[k / 7]?).getD 0).getLsbD (6 - k % 7)

/-- `valid_len = min(8, floor(7 len / 8))` of the reference `Decode` (30_encoding.md R92). -/
def referenceValidLen (len : Nat) : Fin 9 := ⟨min 8 (7 * len / 8), by omega⟩

/-- The reference `Decode` (30_encoding.md R92). -/
def referenceDecode (src : List Byte) : Packet × Fin 9 :=
  (Vector.ofFn fun j : Fin 8 =>
      if j.val < (referenceValidLen src.length).val then byteMsbFirst fun t => bodyBit src (8 * j.val + t) else 0x00,
    referenceValidLen src.length)

/-- `Encode` (00_scope.md R12): the output bytes and their number; only the first `len` bytes are the encoding. -/
def Codec.encode (c : Codec) (p : Packet) : Vector Byte 10 × Fin 11 :=
  match c with
  | .reference => referenceEncode p
  | .other k => Config.otherEncode k p

/-- `Decode(src, len)` (00_scope.md R12), `len` being the length of the list: the Packet bytes and `valid_len`. -/
def Codec.decode (c : Codec) (src : List Byte) : Packet × Fin 9 :=
  match c with
  | .reference => referenceDecode src
  | .other k => Config.otherDecode k src

/-- The encoded body of a Packet: `enc[0..len)` (30_encoding.md R86). -/
def Codec.body (c : Codec) (p : Packet) : List Byte := (c.encode p).1.toList.take (c.encode p).2.val

end Sys2Proof
end

