-- ==== Sys2Proof/Machine/Crc.lean ====
section
/-! DEFINITION. The CRC engine as the block sees it (43_crc_validator.md R170, R177, R178). -/

namespace Sys2Proof

/-- One bit of the reference engine, most significant bit first (43_crc_validator.md R177). -/
def crcBitMsb (c : Word16) : Word16 := if c.msb then (c <<< 1) ^^^ 0x1021 else c <<< 1

/-- One bit of the alternative engine, least significant bit first (43_crc_validator.md R178). -/
def crcBitLsb (c : Word16) : Word16 := if c.getLsbD 0 then (c >>> 1) ^^^ 0xA001 else c >>> 1

/-- `Crc16Update(c, b)` (43_crc_validator.md R170, R177, R178). -/
def CrcEngine.update (e : CrcEngine) (c : Word16) (b : Byte) : Word16 :=
  match e with
  | .msbFirst1021 => Nat.repeat crcBitMsb 8 (c ^^^ (b.zeroExtend 16 <<< 8))
  | .lsbFirstA001 => Nat.repeat crcBitLsb 8 (c ^^^ b.zeroExtend 16)
  | .other k => Config.otherCrc16Update k c b

/-- `Crc16(seq)`: from `CRC_INIT`, each byte of the sequence first to last (43_crc_validator.md R170). -/
def crc16 (cfg : Config) (bytes : List Byte) : Word16 := bytes.foldl cfg.crc.update cfg.crcInit

end Sys2Proof
end

