-- ==== Sys2Proof/Syntax.lean ====
section
/-! DEFINITION. The enumerations of the block and its "instructions": one constructor per row of opcode_table.json
(00_scope.md R2, 30_encoding.md R107). -/

namespace Sys2Proof

/-- The receiver's state register, `rx_state` (10_state.md R24). -/
inductive RxState where
  | rxIdle | seekSentinel | readLength | readBody | validate | acknowledge
  deriving DecidableEq, Repr

/-- The sender's state register, `tx_state` (10_state.md R33). -/
inductive TxState where
  | txIdle | drain | sendFrame | waitAck
  deriving DecidableEq, Repr

/-- The commands, as `cmd_kind` records them (30_encoding.md R96, 10_state.md R39). -/
inductive Command where
  | nop | receivePacket | sendPacket | sendPacketSingleByte
  deriving DecidableEq, Repr

/-- The outcome a command ends with, `res_outcome` (30_encoding.md R97). -/
inductive CmdOutcome where
  | ok | reset | checksumFailed | sendFailed
  deriving DecidableEq, Repr

/-- The verdict of Validate, `rx_outcome` (10_state.md R31): 0 is `ok`, 1 is `checksumFailed`. -/
inductive Verdict where
  | ok | checksumFailed
  deriving DecidableEq, Repr

/-- One constructor per row of opcode_table.json, in the table's order. -/
inductive Instr where
  -- CMD: a command read from the command port in an idle step
  | nop
  | receivePacket
  | sendPacket (dest msgType : Byte) (payload : Vector Byte 4)
  | sendPacketSingleByte (msgType value : Byte)
  -- RXBYTE: a byte the receiver has taken
  | seekSentinel
  | seekOther (b : Byte)
  | lenSentinel
  | lenAccept (b : Byte)
  | lenOversize (b : Byte)
  | bodySentinel
  | bodyData (b : Byte)
  -- RXSTEP: a receiver step that no byte selects
  | rxAbort (st : RxState)
  | rxEmptyPoll (st : RxState)
  | validate
  | acknowledge
  -- TXSTEP: a sender step that no byte selects
  | drain
  | sendFrame
  | txAbort
  | waitAckEmptyPoll
  -- TXBYTE: the byte the sender has taken in WaitAck
  | ackOk
  | ackNotOk (b : Byte)
  -- ACKOUT: the acknowledgement byte the receiver offers
  | ackoutOk
  | ackoutCrcFail
  -- OUTCOME: the outcome a command ends with
  | outOk
  | outReset
  | outChecksumFailed
  | outSendFailed
  deriving DecidableEq, Repr

end Sys2Proof
end

