-- ==== Sys2Proof/WellFormed.lean ====
section
/-! DEFINITION. Which configurations 00_scope.md R7 allows, and which operands an instruction may carry under a configuration. -/

namespace Sys2Proof

/-- The constraints of 00_scope.md R7: `CODEC_MAX_LEN <= MAX_BODY_LEN <= 254`, `MAX_SEND_ATTEMPTS >= 1`,
`ACK_CRC_FAIL != ACK_OK`, `ACK_WAIT_POLLS >= 1` or `UNBOUNDED`. -/
def Config.wf (cfg : Config) : Bool :=
  decide (codecMaxLen ≤ cfg.maxBodyLen) && decide (cfg.maxBodyLen ≤ 254) &&
  decide (1 ≤ cfg.maxSendAttempts) &&
  decide (cfg.ackCrcFail ≠ cfg.ackOk) &&
  (match cfg.ackWaitPolls with
    | none => true
    | some n => decide (1 ≤ n))

/-- The receiver states in which `Abort()` is sampled (60_exceptions.md R248). -/
def RxState.samplesAbort : RxState → Bool
  | .seekSentinel | .readLength | .readBody | .acknowledge => true
  | .rxIdle | .validate => false

/-- The receiver states that call `TryRecv` (41_receiver_framer.md R130, 30_encoding.md R98). -/
def RxState.pollsByte : RxState → Bool
  | .seekSentinel | .readLength | .readBody => true
  | .rxIdle | .validate | .acknowledge => false

/-- The operand conditions of opcode_table.json and 30_encoding.md R98, R99. -/
def Instr.wf (cfg : Config) : Instr → Bool
  | .seekOther b => decide (b ≠ sentinel)
  | .lenAccept b => decide (b ≠ sentinel) && decide (b.toNat ≤ cfg.maxBodyLen)
  | .lenOversize b => decide (b ≠ sentinel) && decide (cfg.maxBodyLen < b.toNat)
  | .bodyData b => decide (b ≠ sentinel)
  | .rxAbort st => st.samplesAbort
  | .rxEmptyPoll st => st.pollsByte
  | .ackNotOk b => decide (b ≠ cfg.ackOk)
  | .nop | .receivePacket | .sendPacket _ _ _ | .sendPacketSingleByte _ _ => true
  | .seekSentinel | .lenSentinel | .bodySentinel | .validate | .acknowledge => true
  | .drain | .sendFrame | .txAbort | .waitAckEmptyPoll | .ackOk => true
  | .ackoutOk | .ackoutCrcFail => true
  | .outOk | .outReset | .outChecksumFailed | .outSendFailed => true

end Sys2Proof
end

