-- ==== Sys2Proof/Decode.lean ====
section
/-! DEFINITION. The codes of the enumerations, the decoded words of the seven formats, the decoder, the encoder, and the rows of
opcode_table.json (30_encoding.md R96 to R99, R107; 10_state.md R24, R33). -/

namespace Sys2Proof

/-- 10_state.md R24. -/
def RxState.code : RxState → BitVec 3
  | .rxIdle => 0 | .seekSentinel => 1 | .readLength => 2 | .readBody => 3 | .validate => 4 | .acknowledge => 5

/-- Encodings 6 and 7 of `rx_state` name no state (10_state.md R24, 30_encoding.md R105). -/
def RxState.ofCode (w : BitVec 3) : Option RxState :=
  if w = 0 then some .rxIdle else if w = 1 then some .seekSentinel else if w = 2 then some .readLength
  else if w = 3 then some .readBody else if w = 4 then some .validate else if w = 5 then some .acknowledge else none

/-- 10_state.md R33. -/
def TxState.code : TxState → BitVec 2
  | .txIdle => 0 | .drain => 1 | .sendFrame => 2 | .waitAck => 3

/-- All four encodings of `tx_state` are used (10_state.md R33). -/
def TxState.ofCode (w : BitVec 2) : TxState :=
  if w = 0 then .txIdle else if w = 1 then .drain else if w = 2 then .sendFrame else .waitAck

/-- 30_encoding.md R96. -/
def Command.code : Command → BitVec 2
  | .nop => 0 | .receivePacket => 1 | .sendPacket => 2 | .sendPacketSingleByte => 3

/-- "All four codes are used; there is no reserved command code" (30_encoding.md R96). -/
def Command.ofCode (w : BitVec 2) : Command :=
  if w = 0 then .nop else if w = 1 then .receivePacket else if w = 2 then .sendPacket else .sendPacketSingleByte

/-- 30_encoding.md R97. -/
def CmdOutcome.code : CmdOutcome → BitVec 2
  | .ok => 0 | .reset => 1 | .checksumFailed => 2 | .sendFailed => 3

/-- All four outcome codes are used (30_encoding.md R97). -/
def CmdOutcome.ofCode (w : BitVec 2) : CmdOutcome :=
  if w = 0 then .ok else if w = 1 then .reset else if w = 2 then .checksumFailed else .sendFailed

/-- `rx_outcome`: 0 means Ok, 1 means ChecksumFailed (10_state.md R31). -/
def Verdict.code : Verdict → BitVec 1
  | .ok => 0 | .checksumFailed => 1

/-- The decoded word, named by its format (30_encoding.md R107). -/
inductive OpWord where
  | cmd (w : BitVec 2)
  | rxByte (w : BitVec 11)
  | rxStep (w : BitVec 3)
  | txByte (w : BitVec 10)
  | txStep (w : BitVec 2)
  | ackOut (w : BitVec 8)
  | outcome (w : BitVec 2)
  deriving DecidableEq, Repr

/-- What the rows' conditions and operands read beside the word: `Abort()`, whether `TryRecv()` returned none, `rx_outcome`, and
the operand part of the command port (opcode_table.json "condition", 30_encoding.md R95). -/
structure Conditions where
  abort : Bool
  noByte : Bool
  verdict : Verdict
  operands : CmdOperands
  deriving DecidableEq, Repr

/-- A word together with what its row's condition and operands read: what one step decodes. -/
structure Fetched where
  word : OpWord
  cond : Conditions
  deriving DecidableEq, Repr

/-- Why a word is no instruction, by name. -/
inductive DecodeError where
  /-- encodings 6 and 7 of `rx_state` (30_encoding.md R105) -/
  | reservedRxState
  /-- the word of an idle state machine: the command port selects the step (40_commands.md R110) -/
  | idleState
  /-- a byte in a state that classifies none (30_encoding.md R98 last row, R99) -/
  | takesNoByte
  /-- a polling state with a byte at hand and no abort: the byte selects the step (30_encoding.md R98, R99) -/
  | byteSelects
  /-- a byte that is not the acknowledgement code of the verdict (45_ack_handshake.md R211) -/
  | notTheAckCode
  deriving DecidableEq, Repr

/-- CMD words (30_encoding.md R95, R96). -/
def decodeCmd (w : BitVec 2) (ops : CmdOperands) : Instr :=
  match Command.ofCode w with
  | .nop => .nop
  | .receivePacket => .receivePacket
  | .sendPacket => .sendPacket ops.dest ops.msgType ops.payload
  | .sendPacketSingleByte => .sendPacketSingleByte ops.msgType ops.value

/-- The receiver's classification of a byte in a state (30_encoding.md R98); in ReadLength the sentinel test comes first
(41_receiver_framer.md R134, R135). -/
def classifyRx (cfg : Config) (st : RxState) (b : Byte) : Except DecodeError Instr :=
  match st with
  | .seekSentinel => .ok (if b = sentinel then .seekSentinel else .seekOther b)
  | .readLength =>
    .ok (if b = sentinel then .lenSentinel else if b.toNat ≤ cfg.maxBodyLen then .lenAccept b else .lenOversize b)
  | .readBody => .ok (if b = sentinel then .bodySentinel else .bodyData b)
  | .rxIdle | .validate | .acknowledge => .error .takesNoByte

/-- RXBYTE words: `rx_state[2:0]` then `b[7:0]` (30_encoding.md R107). -/
def decodeRxByte (cfg : Config) (w : BitVec 11) : Except DecodeError Instr :=
  match RxState.ofCode (w.extractLsb' 8 3) with
  | none => .error .reservedRxState
  | some st => classifyRx cfg st (w.extractLsb' 0 8)

/-- The receiver steps in which no byte is classified, in the order of 60_exceptions.md R251: the abort first. -/
def classifyRxStep (st : RxState) (c : Conditions) : Except DecodeError Instr :=
  match st with
  | .rxIdle => .error .idleState
  | .validate => .ok .validate
  | .acknowledge => .ok (if c.abort then .rxAbort .acknowledge else .acknowledge)
  | .seekSentinel | .readLength | .readBody =>
    if c.abort then .ok (.rxAbort st) else if c.noByte then .ok (.rxEmptyPoll st) else .error .byteSelects

/-- RXSTEP words (30_encoding.md R107). -/
def decodeRxStep (w : BitVec 3) (c : Conditions) : Except DecodeError Instr :=
  match RxState.ofCode w with
  | none => .error .reservedRxState
  | some st => classifyRxStep st c

/-- The sender's classification of the byte taken in WaitAck (30_encoding.md R99). -/
def classifyTx (cfg : Config) (st : TxState) (b : Byte) : Except DecodeError Instr :=
  match st with
  | .waitAck => .ok (if b = cfg.ackOk then .ackOk else .ackNotOk b)
  | .txIdle | .drain | .sendFrame => .error .takesNoByte

/-- TXBYTE words: `tx_state[1:0]` then `b[7:0]` (30_encoding.md R107). -/
def decodeTxByte (cfg : Config) (w : BitVec 10) : Except DecodeError Instr :=
  classifyTx cfg (TxState.ofCode (w.extractLsb' 8 2)) (w.extractLsb' 0 8)

/-- The sender steps in which no byte is classified, in the order of 60_exceptions.md R251. -/
def classifyTxStep (st : TxState) (c : Conditions) : Except DecodeError Instr :=
  match st with
  | .txIdle => .error .idleState
  | .drain => .ok .drain
  | .sendFrame => .ok .sendFrame
  | .waitAck => if c.abort then .ok .txAbort else if c.noByte then .ok .waitAckEmptyPoll else .error .byteSelects

/-- ACKOUT words: the byte `TrySend` is given in Acknowledge, selected by `rx_outcome` (45_ack_handshake.md R211). -/
def decodeAckOut (cfg : Config) (b : Byte) (v : Verdict) : Except DecodeError Instr :=
  match v with
  | .ok => if b = cfg.ackOk then .ok .ackoutOk else .error .notTheAckCode
  | .checksumFailed => if b = cfg.ackCrcFail then .ok .ackoutCrcFail else .error .notTheAckCode

/-- OUTCOME words (30_encoding.md R97). -/
def decodeOutcome (w : BitVec 2) : Instr :=
  match CmdOutcome.ofCode w with
  | .ok => .outOk
  | .reset => .outReset
  | .checksumFailed => .outChecksumFailed
  | .sendFailed => .outSendFailed

/-- The decoder of the block: total, rejecting by name. -/
def decode (cfg : Config) (f : Fetched) : Except DecodeError Instr :=
  match f.word with
  | .cmd w => .ok (decodeCmd w f.cond.operands)
  | .rxByte w => decodeRxByte cfg w
  | .rxStep w => decodeRxStep w f.cond
  | .txByte w => decodeTxByte cfg w
  | .txStep w => classifyTxStep (TxState.ofCode w) f.cond
  | .ackOut w => decodeAckOut cfg w f.cond.verdict
  | .outcome w => .ok (decodeOutcome w)

/-- Command operands that are all zero: what an instruction without operands leaves on the port. -/
def CmdOperands.zero : CmdOperands := { dest := 0, msgType := 0, payload := #v[0, 0, 0, 0], value := 0 }

/-- The conditions under which a byte word is decoded: no abort, a byte at hand. -/
def Conditions.byteAtHand : Conditions := { abort := false, noByte := false, verdict := .ok, operands := .zero }

/-- The conditions of a step without byte and without abort. -/
def Conditions.emptyPoll : Conditions := { Conditions.byteAtHand with noByte := true }

/-- The conditions of a step that observes an abort. -/
def Conditions.aborted : Conditions := { Conditions.byteAtHand with abort := true }

/-- The encoder: the word of an instruction, with what its row's condition reads, from the tables of 30_encoding.md. -/
def encode (cfg : Config) : Instr → Fetched
  | .nop => ⟨.cmd Command.nop.code, .byteAtHand⟩
  | .receivePacket => ⟨.cmd Command.receivePacket.code, .byteAtHand⟩
  | .sendPacket d t p =>
    ⟨.cmd Command.sendPacket.code, { Conditions.byteAtHand with operands := { dest := d, msgType := t, payload := p, value := 0 } }⟩
  | .sendPacketSingleByte t v =>
    ⟨.cmd Command.sendPacketSingleByte.code,
      { Conditions.byteAtHand with operands := { CmdOperands.zero with msgType := t, value := v } }⟩
  | .seekSentinel => ⟨.rxByte (RxState.seekSentinel.code ++ sentinel), .byteAtHand⟩
  | .seekOther b => ⟨.rxByte (RxState.seekSentinel.code ++ b), .byteAtHand⟩
  | .lenSentinel => ⟨.rxByte (RxState.readLength.code ++ sentinel), .byteAtHand⟩
  | .lenAccept b => ⟨.rxByte (RxState.readLength.code ++ b), .byteAtHand⟩
  | .lenOversize b => ⟨.rxByte (RxState.readLength.code ++ b), .byteAtHand⟩
  | .bodySentinel => ⟨.rxByte (RxState.readBody.code ++ sentinel), .byteAtHand⟩
  | .bodyData b => ⟨.rxByte (RxState.readBody.code ++ b), .byteAtHand⟩
  | .rxAbort st => ⟨.rxStep st.code, .aborted⟩
  | .rxEmptyPoll st => ⟨.rxStep st.code, .emptyPoll⟩
  | .validate => ⟨.rxStep RxState.validate.code, .emptyPoll⟩
  | .acknowledge => ⟨.rxStep RxState.acknowledge.code, .emptyPoll⟩
  | .drain => ⟨.txStep TxState.drain.code, .emptyPoll⟩
  | .sendFrame => ⟨.txStep TxState.sendFrame.code, .emptyPoll⟩
  | .txAbort => ⟨.txStep TxState.waitAck.code, .aborted⟩
  | .waitAckEmptyPoll => ⟨.txStep TxState.waitAck.code, .emptyPoll⟩
  | .ackOk => ⟨.txByte (TxState.waitAck.code ++ cfg.ackOk), .byteAtHand⟩
  | .ackNotOk b => ⟨.txByte (TxState.waitAck.code ++ b), .byteAtHand⟩
  | .ackoutOk => ⟨.ackOut cfg.ackOk, .emptyPoll⟩
  | .ackoutCrcFail => ⟨.ackOut cfg.ackCrcFail, { Conditions.emptyPoll with verdict := .checksumFailed }⟩
  | .outOk => ⟨.outcome CmdOutcome.ok.code, .emptyPoll⟩
  | .outReset => ⟨.outcome CmdOutcome.reset.code, .emptyPoll⟩
  | .outChecksumFailed => ⟨.outcome CmdOutcome.checksumFailed.code, .emptyPoll⟩
  | .outSendFailed => ⟨.outcome CmdOutcome.sendFailed.code, .emptyPoll⟩

/-! ### The rows of opcode_table.json -/

/-- The formats of 30_encoding.md R107. -/
inductive Format where
  | cmd | rxByte | rxStep | txByte | txStep | ackOut | outcome
  deriving DecidableEq, Repr

/-- The format of a word. -/
def OpWord.format : OpWord → Format
  | .cmd _ => .cmd | .rxByte _ => .rxByte | .rxStep _ => .rxStep | .txByte _ => .txByte
  | .txStep _ => .txStep | .ackOut _ => .ackOut | .outcome _ => .outcome

/-- The bits of a word, read as one number. -/
def OpWord.bits : OpWord → Nat
  | .cmd w => w.toNat | .rxByte w => w.toNat | .rxStep w => w.toNat | .txByte w => w.toNat
  | .txStep w => w.toNat | .ackOut w => w.toNat | .outcome w => w.toNat

/-- One row of opcode_table.json: its format, `match`, `mask` and `priority`. -/
structure Row where
  format : Format
  pattern : Nat
  mask : Nat
  priority : Nat
  deriving DecidableEq, Repr

/-- The row of an instruction, transcribed from opcode_table.json; a value that depends on a parameter is that of `cfg`. -/
def Instr.row (cfg : Config) : Instr → Row
  | .nop => ⟨.cmd, 0x0, 0x3, 0⟩
  | .receivePacket => ⟨.cmd, 0x1, 0x3, 0⟩
  | .sendPacket _ _ _ => ⟨.cmd, 0x2, 0x3, 0⟩
  | .sendPacketSingleByte _ _ => ⟨.cmd, 0x3, 0x3, 0⟩
  | .seekSentinel => ⟨.rxByte, 0x1FF, 0x7FF, 0⟩
  | .seekOther _ => ⟨.rxByte, 0x100, 0x700, 1⟩
  | .lenSentinel => ⟨.rxByte, 0x2FF, 0x7FF, 0⟩
  | .lenAccept _ => ⟨.rxByte, 0x200, 0x700, 1⟩
  | .lenOversize _ => ⟨.rxByte, 0x200, 0x700, 2⟩
  | .bodySentinel => ⟨.rxByte, 0x3FF, 0x7FF, 0⟩
  | .bodyData _ => ⟨.rxByte, 0x300, 0x700, 1⟩
  | .rxAbort _ => ⟨.rxStep, 0x0, 0x0, 0⟩
  | .rxEmptyPoll _ => ⟨.rxStep, 0x0, 0x0, 1⟩
  | .validate => ⟨.rxStep, 0x4, 0x7, 0⟩
  | .acknowledge => ⟨.rxStep, 0x5, 0x7, 1⟩
  | .drain => ⟨.txStep, 0x1, 0x3, 0⟩
  | .sendFrame => ⟨.txStep, 0x2, 0x3, 0⟩
  | .txAbort => ⟨.txStep, 0x3, 0x3, 0⟩
  | .waitAckEmptyPoll => ⟨.txStep, 0x3, 0x3, 1⟩
  | .ackOk => ⟨.txByte, 0x300 + cfg.ackOk.toNat, 0x3FF, 0⟩
  | .ackNotOk _ => ⟨.txByte, 0x300, 0x300, 1⟩
  | .ackoutOk => ⟨.ackOut, cfg.ackOk.toNat, 0xFF, 0⟩
  | .ackoutCrcFail => ⟨.ackOut, cfg.ackCrcFail.toNat, 0xFF, 0⟩
  | .outOk => ⟨.outcome, 0x0, 0x3, 0⟩
  | .outReset => ⟨.outcome, 0x1, 0x3, 0⟩
  | .outChecksumFailed => ⟨.outcome, 0x2, 0x3, 0⟩
  | .outSendFailed => ⟨.outcome, 0x3, 0x3, 0⟩

/-- The "condition" of an instruction's row in opcode_table.json, read on a fetched word. -/
def Instr.rowCondition (cfg : Config) (f : Fetched) : Instr → Bool
  | .seekOther _ | .bodyData _ => decide (f.word.bits % 256 ≠ 0xFF)
  | .lenAccept _ => decide (f.word.bits % 256 ≤ cfg.maxBodyLen)
  | .lenOversize _ => decide (cfg.maxBodyLen < f.word.bits % 256) && decide (f.word.bits % 256 < 0xFF)
  | .rxAbort _ => [1, 2, 3, 5].contains f.word.bits && f.cond.abort
  | .rxEmptyPoll _ => [1, 2, 3].contains f.word.bits && f.cond.noByte
  | .acknowledge => !f.cond.abort
  | .txAbort => f.cond.abort
  | .waitAckEmptyPoll => !f.cond.abort && f.cond.noByte
  | .ackOk => decide (f.word.bits % 256 = cfg.ackOk.toNat)
  | .ackNotOk _ => decide (f.word.bits % 256 ≠ cfg.ackOk.toNat)
  | .ackoutOk => decide (f.cond.verdict = .ok)
  | .ackoutCrcFail => decide (f.cond.verdict = .checksumFailed)
  | .nop | .receivePacket | .sendPacket _ _ _ | .sendPacketSingleByte _ _ => true
  | .seekSentinel | .lenSentinel | .bodySentinel | .validate | .drain | .sendFrame => true
  | .outOk | .outReset | .outChecksumFailed | .outSendFailed => true

/-- "A row matches a word `w` when `w and mask = match` and the row's `condition`, if it has one, holds" (30_encoding.md R107). -/
def Instr.rowMatches (cfg : Config) (f : Fetched) (i : Instr) : Bool :=
  decide (f.word.format = (i.row cfg).format) && decide (f.word.bits &&& (i.row cfg).mask = (i.row cfg).pattern) &&
  i.rowCondition cfg f

/-! ### Table words without their format -/

/-- The word that `nbits` bits `w` of opcode_table.json stand for.  The table's words carry no format (30_encoding.md R107
names it beside the word), so one number can be a word of several formats.  The exact widths 2, 3, 10 and 11 are read as CMD,
RXSTEP, TXBYTE and RXBYTE; in whole bytes, one byte is a CMD word up to 3 and an RXSTEP word from 4, and two bytes are an RXBYTE
word (log 12). -/
def tableWord (nbits w : Nat) : Option OpWord :=
  if nbits ≤ 2 then (if w < 4 then some (.cmd (BitVec.ofNat 2 w)) else none)
  else if nbits ≤ 3 then (if w < 8 then some (.rxStep (BitVec.ofNat 3 w)) else none)
  else if nbits ≤ 8 then
    (if w < 4 then some (.cmd (BitVec.ofNat 2 w)) else if w < 8 then some (.rxStep (BitVec.ofNat 3 w)) else none)
  else if nbits ≤ 10 then (if w < 1024 then some (.txByte (BitVec.ofNat 10 w)) else none)
  else (if w < 2048 then some (.rxByte (BitVec.ofNat 11 w)) else none)

/-- The conditions a table word is read under: no abort, operands zero; no byte at hand for a word without one. -/
def tableConditions : OpWord → Conditions
  | .rxByte _ | .txByte _ => .byteAtHand
  | .cmd _ | .rxStep _ | .txStep _ | .ackOut _ | .outcome _ => .emptyPoll

/-- The instruction the decoder reads from a table word under the reference configuration. -/
def decodeTableWord (nbits w : Nat) : Option Instr :=
  match tableWord nbits w with
  | none => none
  | some word =>
    match decode Config.reference ⟨word, tableConditions word⟩ with
    | .ok i => some i
    | .error _ => none

end Sys2Proof
end

