-- ==== Sys2Proof/Machine/State.lean ====
section
/-! DEFINITION. The state of the block (10_state.md R20 to R47), its ports, and the reasons a step can stop. -/

namespace Sys2Proof.Machine

open Sys2Proof

/-- Why the machine stops.  Both reasons are an access to a buffer element that does not exist; no run from reset reaches
either (20_memory.md R61, log 9). -/
inductive Fault where
  /-- BODY.DATA or VALIDATE would touch an `rx_buf` element at or above `MAX_BODY_LEN`.  Safe. -/
  | rxBufIndex
  /-- SENDFRAME would offer `F[tx_pos]` with `tx_pos >= |F|`.  Safe. -/
  | frameIndex
  deriving DecidableEq, Repr

/-- Why a word has no meaning. -/
inductive Refusal where
  /-- Raised by an arm of `exec` whose instruction has no meaning yet; no arm raises it.  Safe. -/
  | notModelled (mnemonic : String)
  /-- Raised by `step` for a word the decoder rejects; no state and no input fetches such a word.  Safe. -/
  | undecodable (why : DecodeError)
  deriving DecidableEq, Repr

/-- The receiver's registers (10_state.md R24 to R31). -/
structure Receiver where
  /-- `rx_state` (R24) -/
  state : RxState
  /-- `rx_sent_cnt`, 2 bits (R25) -/
  sentCnt : BitVec 2
  /-- `rx_len`, 8 bits (R26) -/
  len : Byte
  /-- `rx_idx` (R27) -/
  idx : Nat
  /-- `rx_buf[0..MAX_BODY_LEN)` (R28); its length is `MAX_BODY_LEN` -/
  buf : List Byte
  /-- `rx_pkt[0..8)` (R29) -/
  pkt : Packet
  /-- `rx_vlen`, 0 to 8 (R29) -/
  vlen : Fin 9
  /-- `rx_crc` (R30) -/
  crc : Word16
  /-- `rx_outcome` (R31) -/
  verdict : Verdict
  deriving DecidableEq, Repr

/-- The sender's registers (10_state.md R32 to R37). -/
structure Sender where
  /-- `tx_pkt[0..8)` (R32) -/
  pkt : Packet
  /-- `tx_state` (R33) -/
  state : TxState
  /-- `tx_enc[0..CODEC_MAX_LEN)` (R34) -/
  enc : Vector Byte 10
  /-- `tx_enc_len`, 0 to 10 (R34) -/
  encLen : Fin 11
  /-- `tx_pos`, 4 bits (R35) -/
  pos : BitVec 4
  /-- `tx_attempt` (R36) -/
  attempt : Nat
  /-- `tx_wait` (R37); not used when `ACK_WAIT_POLLS` is `UNBOUNDED` -/
  wait : Nat
  /-- `tx_crc` (R37) -/
  crc : Word16
  deriving DecidableEq, Repr

/-- The result registers (10_state.md R38). -/
structure Result where
  /-- `res_done` -/
  done : Bool
  /-- `res_outcome` -/
  outcome : CmdOutcome
  /-- `res_pkt[0..8)` -/
  pkt : Packet
  /-- `res_pkt_valid` -/
  pktValid : Bool
  deriving DecidableEq, Repr

/-- The output ports a step drives (10_state.md R42).  `txPush` is `some b` when `tx_push_o = 1` with `tx_data_o = b`. -/
structure Outputs where
  /-- `rx_pop_o` -/
  rxPop : Bool
  /-- `tx_push_o`, `tx_data_o` -/
  txPush : Option Byte
  /-- `yield_o` -/
  yield : Bool
  deriving DecidableEq, Repr

/-- No output driven. -/
def Outputs.low : Outputs := { rxPop := false, txPush := none, yield := false }

/-- The block's edge to the outside: what the last step drove, the two byte streams as far as the block has moved them
(20_memory.md R50, log 7), and the samples of the input ports of the coming steps (log 1). -/
structure Edge where
  out : Outputs
  /-- the bytes appended to the outbound stream, oldest first -/
  sent : List Byte
  /-- the bytes removed from the inbound stream, oldest first -/
  taken : List Byte
  /-- the port samples of the coming steps, the next one first -/
  inputs : List Ports
  /-- how many steps were taken: the argument of the free values -/
  draws : Nat
  deriving DecidableEq, Repr

/-- The state of one block. -/
structure State where
  /-- the hard-wired CONFIG table (10_state.md R45) -/
  config : Config
  rx : Receiver
  tx : Sender
  res : Result
  /-- `cmd_kind` (R39) -/
  cmdKind : Command
  io : Edge
  deriving DecidableEq, Repr

/-- Right after reset (10_state.md R46), of a block built with the configuration `cfg`; the five buffers, for which R47 gives no
value, hold zeros (log 3), the edge shows nothing (log 5, 6, 7) and lists no port sample (log 1). -/
def State.resetWith (cfg : Config) : State where
  config := cfg
  rx := {
    state := .rxIdle, sentCnt := 0, len := 0, idx := 0, buf := List.replicate cfg.maxBodyLen 0, pkt := Vector.replicate 8 0
    vlen := 0, crc := cfg.crcInit, verdict := .ok }
  tx := {
    pkt := Vector.replicate 8 0, state := .txIdle, enc := Vector.replicate 10 0, encLen := 0, pos := 0, attempt := 0, wait := 0
    crc := cfg.crcInit }
  res := { done := false, outcome := .ok, pkt := Vector.replicate 8 0, pktValid := false }
  cmdKind := .nop
  io := { out := Outputs.low, sent := [], taken := [], inputs := [], draws := 0 }

/-- The machine right after reset: a block built with the reference configuration (log 2). -/
def State.reset : State := State.resetWith Config.reference

end Sys2Proof.Machine
end

