-- ==== Sys2Proof/Machine/Ops.lean ====
section
/-! DEFINITION. The named operations every meaning is written with: sampling the ports, the calls to the outside, `finish`
(how every command ends), the failed attempt, command acceptance, and the reset step. -/

namespace Sys2Proof.Machine

open Sys2Proof

/-- The input ports of the coming step: the first listed sample, else a free one (log 1). -/
def State.ports (s : State) : Ports :=
  match s.io.inputs with
  | p :: _ => p
  | [] => Config.drawPorts s.io.draws

/-- The answer `TryRecv()` would give in this step (10_state.md R42). -/
def State.tryRecv (s : State) : Option Byte := if s.ports.rxAvail then some s.ports.rxData else none

/-- A step that calls nothing outside: all outputs low (10_state.md R42). -/
def State.quiet (s : State) : State := { s with io := { s.io with out := Outputs.low } }

/-- `TryRecv()` returned `b`: the transport drops that byte (20_memory.md R58, 10_state.md R42 `rx_pop_o`). -/
def State.took (b : Byte) (s : State) : State :=
  { s with io := { s.io with out := { Outputs.low with rxPop := true }, taken := s.io.taken ++ [b] } }

/-- `TrySend(b)` returned true: `b` is appended to the outbound stream exactly once (20_memory.md R59, 10_state.md R42). -/
def State.pushed (b : Byte) (s : State) : State :=
  { s with io := { s.io with out := { Outputs.low with txPush := some b }, sent := s.io.sent ++ [b] } }

/-- `Yield()`: the pulse on `yield_o`, no other effect (00_scope.md R13). -/
def State.yielded (s : State) : State := { s with io := { s.io with out := { Outputs.low with yield := true } } }

/-- What a step does beside its instruction: the port sample is used up and the counter of the free values goes on (log 1, 5). -/
def State.advance (s : State) : State :=
  { s with io := { s.io with inputs := s.io.inputs.tail, draws := s.io.draws + 1 } }

/-- `finish(o)`, the one way a command ends (40_commands.md R116): the block's stand-in for taking an exception
(60_exceptions.md R253).  Everything it does not name keeps its value. -/
def finish (o : CmdOutcome) (s : State) : State :=
  if s.cmdKind = .receivePacket ∧ o = .ok then
    { s with
      res := { done := true, outcome := o, pkt := s.rx.pkt, pktValid := true }
      rx := { s.rx with state := .rxIdle }
      tx := { s.tx with state := .txIdle } }
  else
    { s with
      res := { done := true, outcome := o, pkt := s.res.pkt, pktValid := false }
      rx := { s.rx with state := .rxIdle }
      tx := { s.tx with state := .txIdle } }

/-- `attempt_failed` (45_ack_handshake.md R220). -/
def attemptFailed (s : State) : State :=
  if s.tx.attempt = s.config.maxSendAttempts then finish .sendFailed s else { s with tx := { s.tx with state := .drain } }

/-- The part of acceptance all commands share (40_commands.md R113, R114, R115), the block's stand-in for the return from an
exception (60_exceptions.md R255): the kind is recorded, `res_done` and `res_pkt_valid` are cleared. -/
def accept (k : Command) (s : State) : State :=
  { s.quiet with cmdKind := k, res := { s.res with done := false, pktValid := false } }

/-- Resynchronisation: give the frame up and look for a sentinel pair again, with `credit` sentinels already seen
(42_resync.md R150 to R152). -/
def resync (credit : BitVec 2) (s : State) : State :=
  { s with rx := { s.rx with sentCnt := credit, state := .seekSentinel } }

/-- `n` free bytes left in a buffer by the reset step numbered `draw` (10_state.md R47, log 4). -/
def freeBytes (draw buffer n : Nat) : List Byte := (List.range n).map fun i => Config.resetByte draw buffer i

/-- Free bytes for a buffer of fixed size (log 4). -/
def freeVector (draw buffer n : Nat) : Vector Byte n := Vector.ofFn fun i : Fin n => Config.resetByte draw buffer i.val

/-- The reset step, taken instead of any other while `rst` is asserted (10_state.md R46): every register to its reset value,
the five buffers to free bytes (R47, log 4); the streams keep what was moved (70_reset_and_hazards.md R272). -/
def resetStep (s : State) : State where
  config := s.config
  rx := {
    state := .rxIdle, sentCnt := 0, len := 0, idx := 0, buf := freeBytes s.io.draws 0 s.rx.buf.length
    pkt := freeVector s.io.draws 1 8, vlen := 0, crc := s.config.crcInit, verdict := .ok }
  tx := {
    pkt := freeVector s.io.draws 2 8, state := .txIdle, enc := freeVector s.io.draws 3 10, encLen := 0, pos := 0, attempt := 0
    wait := 0, crc := s.config.crcInit }
  res := { done := false, outcome := .ok, pkt := freeVector s.io.draws 4 8, pktValid := false }
  cmdKind := .nop
  io := { s.io with out := Outputs.low }

end Sys2Proof.Machine
end

