-- ==== Sys2Proof/Machine/Operands.lean ====
section
/-! DEFINITION. Operand forms: the Packet built from a command's operands, the frame bytes, and the accesses to `rx_buf`. -/

namespace Sys2Proof.Machine

open Sys2Proof

/-- The Packet's bytes 0 to 5 that `SEND_PACKET` builds from its operands (30_encoding.md R95). -/
def sendPacketHead (dest msgType : Byte) (payload : Vector Byte 4) : Vector Byte 6 :=
  #v[dest, msgType, payload[0], payload[1], payload[2], payload[3]]

/-- The Packet's bytes 0 to 5 that `SEND_PACKET_SINGLE_BYTE` builds (30_encoding.md R95). -/
def singleByteHead (cfg : Config) (msgType value : Byte) : Vector Byte 6 :=
  #v[cfg.defaultDest, msgType, value, 0x00, 0x00, 0x00]

/-- A Packet from its first six bytes and a checksum, stored little-endian, last (30_encoding.md R82, 44_sender_framer.md R192). -/
def packetOf (head : Vector Byte 6) (checksum : Word16) : Packet :=
  #v[head[0], head[1], head[2], head[3], head[4], head[5], checksum.extractLsb' 0 8, checksum.extractLsb' 8 8]

/-- The first six bytes of a Packet: destination, type, payload (30_encoding.md R82). -/
def packetHead (p : Packet) : List Byte := p.toList.take crcCover

/-- The checksum a Packet carries: `zext_16(pkt[6]) | (zext_16(pkt[7]) << 8)` (30_encoding.md R82). -/
def embeddedChecksum (p : Packet) : Word16 := p[6].zeroExtend 16 ||| (p[7].zeroExtend 16 <<< 8)

/-- The checksum computed over a Packet's first six bytes (43_crc_validator.md R173, 44_sender_framer.md R191). -/
def packetChecksum (cfg : Config) (p : Packet) : Word16 := crc16 cfg (packetHead p)

/-- The encoder's write: only elements below the encoded length are written (44_sender_framer.md R193, 10_state.md R23). -/
def writeEnc (old enc : Vector Byte 10) (len : Fin 11) : Vector Byte 10 :=
  Vector.ofFn fun i : Fin 10 => if i.val < len.val then enc[i] else old[i]

/-- The frame byte sequence `F` of the running send command (44_sender_framer.md R196). -/
def State.frame (s : State) : List Byte :=
  [sentinel, sentinel, BitVec.ofNat 8 s.tx.encLen.val] ++ s.tx.enc.toList.take s.tx.encLen.val

/-- `rx_buf[0..rx_len)`, if every element of it exists (43_crc_validator.md R172, 20_memory.md R61). -/
def State.rxBody (s : State) : Option (List Byte) :=
  if s.rx.len.toNat ≤ s.rx.buf.length then some (s.rx.buf.take s.rx.len.toNat) else none

/-- `rx_buf[rx_idx] <- b`, if that element exists (41_receiver_framer.md R138, 20_memory.md R61). -/
def State.storeBody (b : Byte) (s : State) : Option (List Byte) :=
  if s.rx.idx < s.rx.buf.length then some (s.rx.buf.set s.rx.idx b) else none

end Sys2Proof.Machine
end

