-- ==== Sys2Proof/Machine/Flags.lean ====
section
/-! DEFINITION. The verdict of Validate, what it selects, and the views a host can read (the block has no arithmetic flags,
10_state.md R40). -/

namespace Sys2Proof.Machine

open Sys2Proof

/-- The verdict: Ok exactly when 8 bytes were recovered and the checksums agree on all 16 bits (43_crc_validator.md R174, R175). -/
def verdictOf (vlen : Fin 9) (computed embedded : Word16) : Verdict :=
  if vlen.val = packetSize ∧ computed = embedded then .ok else .checksumFailed

/-- The acknowledgement byte, a function of `rx_outcome` alone (45_ack_handshake.md R211). -/
def ackByte (cfg : Config) : Verdict → Byte
  | .ok => cfg.ackOk
  | .checksumFailed => cfg.ackCrcFail

/-- The outcome Acknowledge ends a command with (45_ack_handshake.md R212). -/
def verdictOutcome : Verdict → CmdOutcome
  | .ok => .ok
  | .checksumFailed => .checksumFailed

/-- `busy_o` (10_state.md R44). -/
def State.busy (s : State) : Bool := decide (s.rx.state ≠ .rxIdle) || decide (s.tx.state ≠ .txIdle)

/-- `done_o` (10_state.md R44). -/
def State.doneO (s : State) : Bool := s.res.done

/-- `outcome_o[1:0]` (10_state.md R44, 30_encoding.md R97). -/
def State.outcomeO (s : State) : BitVec 2 := s.res.outcome.code

/-- `pkt_o` (10_state.md R44). -/
def State.pktO (s : State) : Packet := s.res.pkt

/-- `pkt_valid_o` (10_state.md R44). -/
def State.pktValidO (s : State) : Bool := s.res.pktValid

end Sys2Proof.Machine
end

