-- ==== Sys2Proof/Machine/Commands.lean ====
section
/-! DEFINITION. The meanings of the commands: format CMD (40_commands.md R111, R113, R114, R115). -/

namespace Sys2Proof.Machine

open Sys2Proof

/-- NOP (40_commands.md R111): nothing changes, no transport call, no `Abort` sample, no `Yield`. -/
def execNop (s : State) : Host.Outcome State Fault Refusal := .next s.quiet

/-- RECEIVE_PACKET, at acceptance (40_commands.md R113). -/
def execReceivePacket (s : State) : Host.Outcome State Fault Refusal :=
  .next { accept .receivePacket s with rx := { s.rx with sentCnt := 0, state := .seekSentinel } }

/-- The preparation of a send command, once per command, inside its acceptance step: checksum, store, encode
(44_sender_framer.md R190 to R194). -/
def acceptSend (k : Command) (head : Vector Byte 6) (s : State) : State :=
  let crc := crc16 s.config head.toList
  let pkt := packetOf head crc
  let enc := s.config.codec.encode pkt
  { accept k s with
    tx := {
      s.tx with
      pkt := pkt, crc := crc, enc := writeEnc s.tx.enc enc.1 enc.2, encLen := enc.2, attempt := 0, state := .drain } }

/-- SEND_PACKET, at acceptance (40_commands.md R114). -/
def execSendPacket (dest msgType : Byte) (payload : Vector Byte 4) (s : State) : Host.Outcome State Fault Refusal :=
  .next (acceptSend .sendPacket (sendPacketHead dest msgType payload) s)

/-- SEND_PACKET_SINGLE_BYTE, at acceptance (40_commands.md R115). -/
def execSendPacketSingleByte (msgType value : Byte) (s : State) : Host.Outcome State Fault Refusal :=
  .next (acceptSend .sendPacketSingleByte (singleByteHead s.config msgType value) s)

end Sys2Proof.Machine
end

