-- ==== Sys2Proof/Machine/Handshake.lean ====
section
/-! DEFINITION. The meanings of the acknowledgement handshake: ACKNOWLEDGE, and the formats ACKOUT and TXBYTE
(45_ack_handshake.md R210 to R217, R220). -/

namespace Sys2Proof.Machine

open Sys2Proof

/-- Offer the acknowledgement byte `a`; if the transport takes it the command ends with `o`, else the step yields
(45_ack_handshake.md R212, R213). -/
def offerAck (a : Byte) (o : CmdOutcome) (s : State) : State :=
  if s.ports.txReady then finish o (s.pushed a) else s.yielded

/-- ACKNOWLEDGE, with no abort observed (45_ack_handshake.md R210): byte and outcome are selected by `rx_outcome`. -/
def execAcknowledge (s : State) : Host.Outcome State Fault Refusal :=
  .next (offerAck (ackByte s.config s.rx.verdict) (verdictOutcome s.rx.verdict) s)

/-- ACKOUT.OK (45_ack_handshake.md R211, R212, R213): `ACK_OK` is offered. -/
def execAckoutOk (s : State) : Host.Outcome State Fault Refusal := .next (offerAck s.config.ackOk .ok s)

/-- ACKOUT.CRC_FAIL (45_ack_handshake.md R211, R212, R213): `ACK_CRC_FAIL` is offered. -/
def execAckoutCrcFail (s : State) : Host.Outcome State Fault Refusal := .next (offerAck s.config.ackCrcFail .checksumFailed s)

/-- ACK.OK (45_ack_handshake.md R216). -/
def execAckOk (s : State) : Host.Outcome State Fault Refusal := .next (finish .ok (s.took s.config.ackOk))

/-- ACK.NOT_OK (45_ack_handshake.md R217, R220). -/
def execAckNotOk (b : Byte) (s : State) : Host.Outcome State Fault Refusal := .next (attemptFailed (s.took b))

end Sys2Proof.Machine
end

