-- ==== Sys2Proof/Machine/Outcomes.lean ====
section
/-! DEFINITION. The meanings of the outcomes: format OUTCOME (30_encoding.md R97); each is `finish` with its outcome
(40_commands.md R116, log 13). -/

namespace Sys2Proof.Machine

open Sys2Proof

/-- OUT.OK: `finish(Ok)`. -/
def execOutOk (s : State) : Host.Outcome State Fault Refusal := .next (finish .ok s.quiet)

/-- OUT.RESET: `finish(Reset)`. -/
def execOutReset (s : State) : Host.Outcome State Fault Refusal := .next (finish .reset s.quiet)

/-- OUT.CHECKSUM_FAILED: `finish(ChecksumFailed)`. -/
def execOutChecksumFailed (s : State) : Host.Outcome State Fault Refusal := .next (finish .checksumFailed s.quiet)

/-- OUT.SEND_FAILED: `finish(SendFailed)`. -/
def execOutSendFailed (s : State) : Host.Outcome State Fault Refusal := .next (finish .sendFailed s.quiet)

end Sys2Proof.Machine
end

