-- ==== Sys2Proof/Machine/ReceiverFramer.lean ====
section
/-! DEFINITION. The meanings of the receiver's framing, resynchronisation and validation: formats RXBYTE and RXSTEP but for
ACKNOWLEDGE (41_receiver_framer.md, 42_resync.md, 43_crc_validator.md, 60_exceptions.md R248). -/

namespace Sys2Proof.Machine

open Sys2Proof

/-- SEEK.SENTINEL (41_receiver_framer.md R131, R132). -/
def execSeekSentinel (s : State) : Host.Outcome State Fault Refusal :=
  if s.rx.sentCnt + 1 = BitVec.ofNat 2 sentinelCount then
    .next { s.took sentinel with rx := { s.rx with sentCnt := 0, state := .readLength } }
  else
    .next { s.took sentinel with rx := { s.rx with sentCnt := s.rx.sentCnt + 1 } }

/-- SEEK.OTHER (41_receiver_framer.md R133). -/
def execSeekOther (b : Byte) (s : State) : Host.Outcome State Fault Refusal :=
  .next { s.took b with rx := { s.rx with sentCnt := 0 } }

/-- LEN.SENTINEL (42_resync.md R150): the byte is the first sentinel of a new frame. -/
def execLenSentinel (s : State) : Host.Outcome State Fault Refusal := .next (resync 1 (s.took sentinel))

/-- LEN.ACCEPT (41_receiver_framer.md R136). -/
def execLenAccept (b : Byte) (s : State) : Host.Outcome State Fault Refusal :=
  .next { s.took b with
    rx := { s.rx with len := b, idx := 0, state := if b = 0 then .validate else .readBody } }

/-- LEN.OVERSIZE (42_resync.md R152): the byte earns no credit. -/
def execLenOversize (b : Byte) (s : State) : Host.Outcome State Fault Refusal := .next (resync 0 (s.took b))

/-- BODY.SENTINEL (42_resync.md R151): the byte is not stored. -/
def execBodySentinel (s : State) : Host.Outcome State Fault Refusal := .next (resync 1 (s.took sentinel))

/-- BODY.DATA (41_receiver_framer.md R138); an element that does not exist faults (20_memory.md R61, log 9). -/
def execBodyData (b : Byte) (s : State) : Host.Outcome State Fault Refusal :=
  match s.storeBody b with
  | none => .fault .rxBufIndex
  | some buf =>
    .next { s.took b with
      rx := {
        s.rx with
        buf := buf, idx := s.rx.idx + 1, state := if s.rx.idx + 1 = s.rx.len.toNat then .validate else s.rx.state } }

/-- RX.ABORT (60_exceptions.md R248): `finish(Reset)` and nothing else, in whichever sampling state. -/
def execRxAbort (_st : RxState) (s : State) : Host.Outcome State Fault Refusal := .next (finish .reset s.quiet)

/-- RX.EMPTY_POLL (41_receiver_framer.md R130): `Yield()`, no register changes. -/
def execRxEmptyPoll (_st : RxState) (s : State) : Host.Outcome State Fault Refusal := .next s.yielded

/-- VALIDATE, one step (43_crc_validator.md R171 to R176); a body element that does not exist faults (20_memory.md R61, log 9). -/
def execValidate (s : State) : Host.Outcome State Fault Refusal :=
  match s.rxBody with
  | none => .fault .rxBufIndex
  | some body =>
    let d := s.config.codec.decode body
    let c := packetChecksum s.config d.1
    .next { s.quiet with
      rx := {
        s.rx with
        pkt := d.1, vlen := d.2, crc := c, verdict := verdictOf d.2 c (embeddedChecksum d.1), state := .acknowledge } }

end Sys2Proof.Machine
end

