-- ==== Sys2Proof/Machine/SenderFramer.lean ====
section
/-! DEFINITION. The meanings of the sender's steps that no byte selects: format TXSTEP (44_sender_framer.md R195 to R199,
45_ack_handshake.md R218 to R221, 60_exceptions.md R249). -/

namespace Sys2Proof.Machine

open Sys2Proof

/-- The one `TryRecv` of Drain: its answer is discarded, a byte it returned is gone (44_sender_framer.md R195). -/
def State.drained (s : State) : State :=
  match s.tryRecv with
  | some b => s.took b
  | none => s.quiet

/-- DRAIN (44_sender_framer.md R195). -/
def execDrain (s : State) : Host.Outcome State Fault Refusal :=
  .next { s.drained with tx := { s.tx with attempt := s.tx.attempt + 1, pos := 0, state := .sendFrame } }

/-- The frame byte at `tx_pos` was accepted (44_sender_framer.md R197, R199); the position is incremented in its 4 bits
(10_state.md R35). -/
def frameByteSent (b : Byte) (s : State) : State :=
  if (s.tx.pos + 1).toNat = s.tx.encLen.val + 3 then
    { s.pushed b with tx := { s.tx with pos := s.tx.pos + 1, wait := 0, state := .waitAck } }
  else
    { s.pushed b with tx := { s.tx with pos := s.tx.pos + 1 } }

/-- SENDFRAME (44_sender_framer.md R197, R198): no abort sample, no `Yield`; a position beyond the frame faults (20_memory.md
R61, log 9). -/
def execSendFrame (s : State) : Host.Outcome State Fault Refusal :=
  match s.frame[s.tx.pos.toNat]? with
  | none => .fault .frameIndex
  | some b => if s.ports.txReady then .next (frameByteSent b s) else .next s.quiet

/-- TX.ABORT (60_exceptions.md R249): `finish(Reset)` and nothing else. -/
def execTxAbort (s : State) : Host.Outcome State Fault Refusal := .next (finish .reset s.quiet)

/-- The output of an empty poll in WaitAck (45_ack_handshake.md R219). -/
def State.waitPolled (s : State) : State := if s.config.senderAckWaitYield then s.yielded else s.quiet

/-- WAITACK.EMPTY_POLL (45_ack_handshake.md R218, R219, R220); with the wait `UNBOUNDED` the counter does not exist (R221). -/
def execWaitAckEmptyPoll (s : State) : Host.Outcome State Fault Refusal :=
  match s.config.ackWaitPolls with
  | none => .next s.waitPolled
  | some n =>
    if s.tx.wait + 1 = n then
      .next (attemptFailed { s.waitPolled with tx := { s.tx with wait := s.tx.wait + 1 } })
    else
      .next { s.waitPolled with tx := { s.tx with wait := s.tx.wait + 1 } }

end Sys2Proof.Machine
end

