-- ==== Sys2Proof/Machine/Dispatch.lean ====
section
/-! DEFINITION. One arm per instruction: which meaning it has. -/

namespace Sys2Proof.Machine

open Sys2Proof

def exec (i : Instr) (s : State) : Host.Outcome State Fault Refusal :=
  match i with
  -- CMD
  | .nop => Sys2Proof.Machine.execNop s
  | .receivePacket => Sys2Proof.Machine.execReceivePacket s
  | .sendPacket dest msgType payload => Sys2Proof.Machine.execSendPacket dest msgType payload s
  | .sendPacketSingleByte msgType value => Sys2Proof.Machine.execSendPacketSingleByte msgType value s
  -- RXBYTE
  | .seekSentinel => Sys2Proof.Machine.execSeekSentinel s
  | .seekOther b => Sys2Proof.Machine.execSeekOther b s
  | .lenSentinel => Sys2Proof.Machine.execLenSentinel s
  | .lenAccept b => Sys2Proof.Machine.execLenAccept b s
  | .lenOversize b => Sys2Proof.Machine.execLenOversize b s
  | .bodySentinel => Sys2Proof.Machine.execBodySentinel s
  | .bodyData b => Sys2Proof.Machine.execBodyData b s
  -- RXSTEP
  | .rxAbort st => Sys2Proof.Machine.execRxAbort st s
  | .rxEmptyPoll st => Sys2Proof.Machine.execRxEmptyPoll st s
  | .validate => Sys2Proof.Machine.execValidate s
  | .acknowledge => Sys2Proof.Machine.execAcknowledge s
  -- TXSTEP
  | .drain => Sys2Proof.Machine.execDrain s
  | .sendFrame => Sys2Proof.Machine.execSendFrame s
  | .txAbort => Sys2Proof.Machine.execTxAbort s
  | .waitAckEmptyPoll => Sys2Proof.Machine.execWaitAckEmptyPoll s
  -- TXBYTE
  | .ackOk => Sys2Proof.Machine.execAckOk s
  | .ackNotOk b => Sys2Proof.Machine.execAckNotOk b s
  -- ACKOUT
  | .ackoutOk => Sys2Proof.Machine.execAckoutOk s
  | .ackoutCrcFail => Sys2Proof.Machine.execAckoutCrcFail s
  -- OUTCOME
  | .outOk => Sys2Proof.Machine.execOutOk s
  | .outReset => Sys2Proof.Machine.execOutReset s
  | .outChecksumFailed => Sys2Proof.Machine.execOutChecksumFailed s
  | .outSendFailed => Sys2Proof.Machine.execOutSendFailed s

end Sys2Proof.Machine
end

