-- ==== Sys2Proof/Machine/Fetch.lean ====
section
/-! DEFINITION. Which word the coming step decodes: the block fetches nothing from a memory; its two state registers, the port
sample and, when idle, the command port select the step (00_scope.md R2, 40_commands.md R110, R111, R119). -/

namespace Sys2Proof.Machine

open Sys2Proof

/-- The word of a receiver step.  A polling state without abort calls `TryRecv`; if it answers a byte, the byte is part of the
word (41_receiver_framer.md R130). -/
def rxWord (st : RxState) (abort : Bool) (r : Option Byte) : OpWord :=
  match r with
  | some b => if st.pollsByte && !abort then .rxByte (st.code ++ b) else .rxStep st.code
  | none => .rxStep st.code

/-- The word of a sender step.  Only WaitAck classifies a byte (44_sender_framer.md R203, 45_ack_handshake.md R214). -/
def txWord (st : TxState) (abort : Bool) (r : Option Byte) : OpWord :=
  match r with
  | some b => if decide (st = .waitAck) && !abort then .txByte (st.code ++ b) else .txStep st.code
  | none => .txStep st.code

/-- The top-level choice of 40_commands.md R110, below `rst`. -/
def State.fetchWord (s : State) : OpWord :=
  if s.rx.state ≠ .rxIdle then rxWord s.rx.state s.ports.abort s.tryRecv
  else if s.tx.state ≠ .txIdle then txWord s.tx.state s.ports.abort s.tryRecv
  else .cmd s.ports.cmd

/-- What the coming step decodes. -/
def State.fetch (s : State) : Fetched where
  word := s.fetchWord
  cond := {
    abort := s.ports.abort, noByte := decide (s.tryRecv = none), verdict := s.rx.verdict, operands := s.ports.operands }

end Sys2Proof.Machine
end

