-- ==== Sys2Proof/Machine/Step.lean ====
section
/-! DEFINITION. One step of the block: one poll iteration of whichever state machine is active, or an idle step, or the reset
step (00_scope.md R10, 40_commands.md R110). -/

namespace Sys2Proof

/-- A port sample with no reset, no abort, no byte, a ready transport and no command. -/
def Ports.still : Ports where
  rst := false
  abort := false
  rxAvail := false
  rxData := 0
  txReady := true
  cmd := 0
  operands := CmdOperands.zero

end Sys2Proof

namespace Sys2Proof.Machine

open Sys2Proof

/-- An outcome with its next state carried past the step's port sample. -/
def advanceOutcome (o : Host.Outcome State Fault Refusal) : Host.Outcome State Fault Refusal :=
  match o with
  | .next t => .next t.advance
  | .fault r => .fault r
  | .refused r => .refused r

/-- The step function (40_commands.md R110): `rst` first, else the instruction that the state registers and the port sample
select. -/
def step (s : State) : Host.Outcome State Fault Refusal :=
  if s.ports.rst then .next (resetStep s).advance
  else
    match decode s.config s.fetch with
    | .ok i => advanceOutcome (exec i s)
    | .error e => .refused (.undecodable e)

/-- `s` with the state registers and the port sample of the next step set so that the step decodes `word`: a command word is
presented to the idle block, a state's word sets that state, a byte word offers its byte.  An acknowledgement byte and an
outcome are no word of a step: for them, and for a code that names no state, the state is unchanged (log 13). -/
def State.selecting (word : OpWord) (s : State) : State :=
  match word with
  | .cmd w =>
    { s with
      rx := { s.rx with state := .rxIdle }, tx := { s.tx with state := .txIdle }
      io := { s.io with inputs := { Ports.still with cmd := w } :: s.io.inputs } }
  | .rxByte w =>
    match RxState.ofCode (w.extractLsb' 8 3) with
    | none => s
    | some st =>
      { s with
        rx := { s.rx with state := st }, tx := { s.tx with state := .txIdle }
        io := { s.io with inputs := { Ports.still with rxAvail := true, rxData := w.extractLsb' 0 8 } :: s.io.inputs } }
  | .rxStep w =>
    match RxState.ofCode w with
    | none => s
    | some st =>
      { s with
        rx := { s.rx with state := st }, tx := { s.tx with state := .txIdle }
        io := { s.io with inputs := Ports.still :: s.io.inputs } }
  | .txByte w =>
    { s with
      rx := { s.rx with state := .rxIdle }, tx := { s.tx with state := TxState.ofCode (w.extractLsb' 8 2) }
      io := { s.io with inputs := { Ports.still with rxAvail := true, rxData := w.extractLsb' 0 8 } :: s.io.inputs } }
  | .txStep w =>
    { s with
      rx := { s.rx with state := .rxIdle }, tx := { s.tx with state := TxState.ofCode w }
      io := { s.io with inputs := Ports.still :: s.io.inputs } }
  | .ackOut _ => s
  | .outcome _ => s

/-- `s` arranged so that its next step runs the instruction of the table word `w` of `nbits` bits (log 12, 13). -/
def State.withFetchWord (s : State) (nbits w : Nat) : State :=
  match tableWord nbits w with
  | none => s
  | some word => s.selecting word

end Sys2Proof.Machine
end

