-- ==== Sys2Proof/Safety.lean ====
section
/-! DEFINITION. What claims about the block are stated in: frames, what a step does at the edge, the laws a configuration may be
assumed to have, and the invariants every step keeps. -/

namespace Sys2Proof

/-! ### What may be assumed of a configuration -/

/-- What may be assumed of `Encode` and `Decode` beside their types (30_encoding.md R93 (b), (c)). -/
structure Codec.Lawful (c : Codec) : Prop where
  sentinelFree : ∀ p, sentinel ∉ c.body p
  roundTrip : ∀ p, c.decode (c.body p) = (p, 8)

/-- `x` and `y` differ in exactly one bit of one element. -/
def OneBitApart (x y : List Byte) : Prop :=
  x.length = y.length ∧
  ∃ i k : Nat, i < x.length ∧ k < 8 ∧ y = x.set i ((x[i]?).getD 0 ^^^ BitVec.twoPow 8 k)

/-! ### Port samples -/

/-- A sample in which neither reset nor abort is asserted and `TryRecv` answers `b`. -/
def Ports.delivers (b : Byte) (p : Ports) : Prop :=
  p.rst = false ∧ p.abort = false ∧ p.rxAvail = true ∧ p.rxData = b

/-- A sample of a silent link: no reset, no abort, no byte, and a transport that takes what it is given. -/
def Ports.silent (p : Ports) : Prop :=
  p.rst = false ∧ p.abort = false ∧ p.rxAvail = false ∧ p.txReady = true

end Sys2Proof

namespace Sys2Proof.Machine

open Sys2Proof

/-! ### Frames -/

/-- Only receiver registers and the edge may differ (10_state.md R23). -/
def OnlyReceiver (s t : State) : Prop :=
  t.config = s.config ∧ t.tx = s.tx ∧ t.res = s.res ∧ t.cmdKind = s.cmdKind

/-- Only sender registers and the edge may differ (10_state.md R23). -/
def OnlySender (s t : State) : Prop :=
  t.config = s.config ∧ t.rx = s.rx ∧ t.res = s.res ∧ t.cmdKind = s.cmdKind

/-- No register differs, only the edge may (10_state.md R23). -/
def OnlyEdge (s t : State) : Prop :=
  t.config = s.config ∧ t.rx = s.rx ∧ t.tx = s.tx ∧ t.res = s.res ∧ t.cmdKind = s.cmdKind

/-- The outputs of a step that took a byte. -/
def Outputs.pop : Outputs := { rxPop := true, txPush := none, yield := false }

/-- The outputs of a step whose byte `b` the transport took. -/
def Outputs.push (b : Byte) : Outputs := { rxPop := false, txPush := some b, yield := false }

/-- The outputs of a step that yielded. -/
def Outputs.pulse : Outputs := { rxPop := false, txPush := none, yield := true }

/-- An instruction drives `out`, appends `sent` to the outbound stream and removes `taken` from the inbound one; it does not
touch the port samples or the counter of the free values. -/
def Drives (out : Outputs) (sent taken : List Byte) (s t : State) : Prop :=
  t.io.out = out ∧ t.io.sent = s.io.sent ++ sent ∧ t.io.taken = s.io.taken ++ taken ∧
  t.io.inputs = s.io.inputs ∧ t.io.draws = s.io.draws

/-- As `Drives`, of a whole step: the step's port sample is used up and the counter of the free values goes on. -/
def StepDrives (out : Outputs) (sent taken : List Byte) (s t : State) : Prop :=
  t.io.out = out ∧ t.io.sent = s.io.sent ++ sent ∧ t.io.taken = s.io.taken ++ taken ∧
  t.io.inputs = s.io.inputs.tail ∧ t.io.draws = s.io.draws + 1

/-- The command of `s` has ended with outcome `o` in `t`: what `finish` writes and what it leaves (40_commands.md R116). -/
def Finished (o : CmdOutcome) (s t : State) : Prop :=
  t.res.outcome = o ∧ t.res.done = true ∧
  (s.cmdKind = .receivePacket ∧ o = .ok → t.res.pkt = s.rx.pkt ∧ t.res.pktValid = true) ∧
  (¬ (s.cmdKind = .receivePacket ∧ o = .ok) → t.res.pkt = s.res.pkt ∧ t.res.pktValid = false) ∧
  t.rx = { s.rx with state := .rxIdle } ∧ t.tx = { s.tx with state := .txIdle } ∧
  t.cmdKind = s.cmdKind ∧ t.config = s.config

/-- The attempt of `s` has failed in `t` (45_ack_handshake.md R220): the last allowed one ends the command, any other leads to
the next attempt. -/
def AttemptFailed (s t : State) : Prop :=
  (s.tx.attempt = s.config.maxSendAttempts → Finished .sendFailed s t) ∧
  (s.tx.attempt ≠ s.config.maxSendAttempts → t.tx = { s.tx with state := .drain } ∧ OnlySender s t)

/-! ### Invariants -/

/-- The invariant of the two state machines: every configuration, counter and buffer bound the rules of 10_state.md give. -/
structure ControlInv (s : State) : Prop where
  /-- 00_scope.md R7 -/
  config : s.config.wf = true
  /-- 10_state.md R21 -/
  exclusive : s.rx.state = .rxIdle ∨ s.tx.state = .txIdle
  /-- 10_state.md R39 -/
  rxKind : s.rx.state ≠ .rxIdle → s.cmdKind = .receivePacket
  /-- 10_state.md R39 -/
  txKind : s.tx.state ≠ .txIdle → s.cmdKind = .sendPacket ∨ s.cmdKind = .sendPacketSingleByte
  /-- 10_state.md R25 -/
  sentCnt : s.rx.sentCnt = 0 ∨ s.rx.sentCnt = 1
  /-- 41_receiver_framer.md R139 -/
  sentCntClear : s.rx.state ≠ .rxIdle → s.rx.state ≠ .seekSentinel → s.rx.sentCnt = 0
  /-- 10_state.md R28 -/
  bufLength : s.rx.buf.length = s.config.maxBodyLen
  /-- 10_state.md R26 -/
  lenBound : s.rx.len.toNat ≤ s.config.maxBodyLen
  /-- 10_state.md R27 -/
  idxBound : s.rx.idx ≤ s.rx.len.toNat
  /-- 41_receiver_framer.md R137 -/
  bodyOpen : s.rx.state = .readBody → s.rx.idx < s.rx.len.toNat
  /-- 41_receiver_framer.md R138 -/
  bodyFull : s.rx.state = .validate ∨ s.rx.state = .acknowledge → s.rx.idx = s.rx.len.toNat
  /-- 10_state.md R28, of the stored bytes -/
  noSentinel : sentinel ∉ s.rx.buf.take s.rx.idx
  /-- 10_state.md R35, in every state: the longest frame has `CODEC_MAX_LEN + 3` bytes -/
  posBound : s.tx.pos.toNat ≤ codecMaxLen + 3
  /-- 10_state.md R35: the range within the running frame; an acceptance writes a new `tx_enc_len` and leaves `tx_pos` to the
  Drain of the first attempt (40_commands.md R114, log 14) -/
  posRange : ¬ (s.tx.state = .drain ∧ s.tx.attempt = 0) → s.tx.pos.toNat ≤ s.tx.encLen.val + 3
  /-- 44_sender_framer.md R197 -/
  posOpen : s.tx.state = .sendFrame → s.tx.pos.toNat < s.tx.encLen.val + 3
  /-- 44_sender_framer.md R199 -/
  posDone : s.tx.state = .waitAck → s.tx.pos.toNat = s.tx.encLen.val + 3
  /-- 10_state.md R36 -/
  attemptBound : s.tx.attempt ≤ s.config.maxSendAttempts
  /-- 45_ack_handshake.md R220 -/
  attemptLeft : s.tx.state = .drain → s.tx.attempt < s.config.maxSendAttempts
  /-- 44_sender_framer.md R195 -/
  attemptStarted : s.tx.state = .sendFrame ∨ s.tx.state = .waitAck → 1 ≤ s.tx.attempt
  /-- 10_state.md R37 -/
  waitBound : ∀ n, s.config.ackWaitPolls = some n → s.tx.wait ≤ n
  /-- 45_ack_handshake.md R218 -/
  waitLeft : s.tx.state = .waitAck → ∀ n, s.config.ackWaitPolls = some n → s.tx.wait < n

/-- The invariant of the result port: what is shown as finished, valid or failed is what happened. -/
structure ResultInv (s : State) : Prop where
  /-- 10_state.md R38 with 40_commands.md R113, R114, R115 -/
  runningNotDone : s.busy = true → s.res.done = false ∧ s.res.pktValid = false
  /-- 10_state.md R38: valid exactly when the last finished command was a receive that ended Ok -/
  validIff : s.res.pktValid = true ↔ s.res.done = true ∧ s.cmdKind = .receivePacket ∧ s.res.outcome = .ok
  /-- 43_crc_validator.md R174: a delivered Packet carries its own checksum -/
  deliveredChecksum : s.res.pktValid = true → packetChecksum s.config s.res.pkt = embeddedChecksum s.res.pkt
  /-- 60_exceptions.md R241 -/
  checksumFailedKind : s.res.done = true → s.res.outcome = .checksumFailed → s.cmdKind = .receivePacket
  /-- 60_exceptions.md R242 -/
  sendFailedKind :
    s.res.done = true → s.res.outcome = .sendFailed → s.cmdKind = .sendPacket ∨ s.cmdKind = .sendPacketSingleByte
  /-- 43_crc_validator.md R171: in Acknowledge the decoded Packet, the CRC and the verdict are those of the stored body -/
  validated : s.rx.state = .acknowledge →
    (s.rx.pkt, s.rx.vlen) = s.config.codec.decode (s.rx.buf.take s.rx.len.toNat) ∧
    s.rx.crc = packetChecksum s.config s.rx.pkt ∧
    s.rx.verdict = verdictOf s.rx.vlen s.rx.crc (embeddedChecksum s.rx.pkt)

/-- The invariant of a running send command: its Packet carries its checksum and its encoding is that of the Packet
(44_sender_framer.md R190 to R193). -/
structure SenderInv (s : State) : Prop where
  checksum : s.tx.state ≠ .txIdle → s.tx.crc = packetChecksum s.config s.tx.pkt
  stored : s.tx.state ≠ .txIdle → embeddedChecksum s.tx.pkt = s.tx.crc
  encoded : s.tx.state ≠ .txIdle →
    s.tx.encLen = (s.config.codec.encode s.tx.pkt).2 ∧
    s.tx.enc.toList.take s.tx.encLen.val = s.config.codec.body s.tx.pkt

end Sys2Proof.Machine
end

