-- ==== Sys2Proof/Certificates/Slice0/Obligations.lean ====
section
/-! DEFINITION. The statements about the block, for the provers.  Every statement holds for every configuration and for every
port sample; where one rests on a choice of this model and not on a rule of the spec, its docstring says so. -/

open Sys2Proof Sys2Proof.Machine

/-! ### Encoding -/

/-- Words written out from opcode_table.json stand for their rows (30_encoding.md R107); the widths the words are read by are
this model's choice (log 12). -/
def Obligations.TableWordsDecode : Prop :=
  decodeTableWord 8 1 = some .receivePacket ∧
  decodeTableWord 16 0x1FF = some .seekSentinel ∧
  decodeTableWord 16 0x20A = some (.lenAccept 0x0A) ∧
  decodeTableWord 16 0x211 = some (.lenOversize 0x11) ∧
  decodeTableWord 16 0x341 = some (.bodyData 0x41) ∧
  decodeTableWord 8 4 = some .validate ∧
  decodeTableWord 10 0x300 = some .ackOk ∧
  decodeTableWord 10 0x301 = some (.ackNotOk 0x01) ∧
  decodeTableWord 8 6 = none

/-- Decoding the encoding of a well-formed instruction gives it back, for every instruction and every configuration. -/
def Obligations.DecodeEncodeAgree : Prop :=
  ∀ (cfg : Config) (i : Instr), i.wf cfg = true → decode cfg (encode cfg i) = .ok i

/-- Reading the table by `match`, `mask`, condition and priority (30_encoding.md R107): what the decoder reads from a word is
well-formed, encodes to that word, matches it as its row, and no row that matches it has a smaller priority; and a word that
some row matches is decoded. -/
def Obligations.DecodedInstructionIsItsTableRow : Prop :=
  ∀ (cfg : Config) (f : Fetched),
    (∀ i, decode cfg f = .ok i →
      i.wf cfg = true ∧ (encode cfg i).word = f.word ∧ i.rowMatches cfg f = true ∧
      ∀ j : Instr, j.rowMatches cfg f = true → (i.row cfg).priority ≤ (j.row cfg).priority) ∧
    ((∃ j : Instr, j.rowMatches cfg f = true) → ∃ i, decode cfg f = .ok i)

/-- The receiver's decode table (30_encoding.md R98): the class of every byte in every state. -/
def Obligations.ReceiverClassifiesEveryByte : Prop :=
  ∀ (cfg : Config) (c : Conditions) (b : Byte), cfg.wf = true →
    (b = 0xFF → decode cfg ⟨.rxByte (RxState.seekSentinel.code ++ b), c⟩ = .ok .seekSentinel) ∧
    (b ≠ 0xFF → decode cfg ⟨.rxByte (RxState.seekSentinel.code ++ b), c⟩ = .ok (.seekOther b)) ∧
    (b = 0xFF → decode cfg ⟨.rxByte (RxState.readLength.code ++ b), c⟩ = .ok .lenSentinel) ∧
    (cfg.maxBodyLen < b.toNat ∧ b ≠ 0xFF →
      decode cfg ⟨.rxByte (RxState.readLength.code ++ b), c⟩ = .ok (.lenOversize b)) ∧
    (b.toNat ≤ cfg.maxBodyLen → decode cfg ⟨.rxByte (RxState.readLength.code ++ b), c⟩ = .ok (.lenAccept b)) ∧
    (b = 0xFF → decode cfg ⟨.rxByte (RxState.readBody.code ++ b), c⟩ = .ok .bodySentinel) ∧
    (b ≠ 0xFF → decode cfg ⟨.rxByte (RxState.readBody.code ++ b), c⟩ = .ok (.bodyData b)) ∧
    (∀ st, st = RxState.validate ∨ st = .acknowledge ∨ st = .rxIdle →
      decode cfg ⟨.rxByte (st.code ++ b), c⟩ = .error .takesNoByte)

/-- The sender's decode table (30_encoding.md R99): in WaitAck a byte is the OK code or it is not; in Drain it is not classified:
a byte at hand is taken and discarded whatever its value, and the registers after the step are the same with it or without. -/
def Obligations.SenderClassifiesTheAcknowledgement : Prop :=
  ∀ (cfg : Config) (c : Conditions) (b : Byte),
    (b = cfg.ackOk → decode cfg ⟨.txByte (TxState.waitAck.code ++ b), c⟩ = .ok .ackOk) ∧
    (b ≠ cfg.ackOk → decode cfg ⟨.txByte (TxState.waitAck.code ++ b), c⟩ = .ok (.ackNotOk b)) ∧
    (cfg.ackCrcFail ≠ cfg.ackOk →
      decode cfg ⟨.txByte (TxState.waitAck.code ++ cfg.ackCrcFail), c⟩ = .ok (.ackNotOk cfg.ackCrcFail)) ∧
    decode cfg ⟨.txByte (TxState.drain.code ++ b), c⟩ = .error .takesNoByte ∧
    (∀ s : State, s.rx.state = .rxIdle → s.tx.state = .drain → s.ports.rst = false →
      decode s.config s.fetch = .ok .drain ∧
      ∃ t, step s = .next t ∧ OnlySender s t ∧
        t.tx = { s.tx with attempt := s.tx.attempt + 1, pos := 0, state := .sendFrame } ∧
        (s.ports.rxAvail = true → StepDrives Outputs.pop [] [s.ports.rxData] s t) ∧
        (s.ports.rxAvail = false → StepDrives Outputs.low [] [] s t))

/-! ### The step -/

/-- Every state and every port sample select a word that the decoder reads as a well-formed instruction, and no step is refused. -/
def Obligations.EveryStepDecodes : Prop :=
  ∀ s : State, (∃ i, decode s.config s.fetch = .ok i ∧ i.wf s.config = true) ∧ ∀ r, step s ≠ .refused r

/-- A step runs the decoded instruction: its registers, outputs and streams are what `exec` answers; beside that the step's
port sample is used up and the counter of the free values goes on.  A fault of the instruction is the step's. -/
def Obligations.StepRunsTheDecodedInstruction : Prop :=
  ∀ (s : State) (i : Instr), s.ports.rst = false → decode s.config s.fetch = .ok i →
    (∀ u, exec i s = .next u → ∃ t, step s = .next t ∧
      t.config = u.config ∧ t.rx = u.rx ∧ t.tx = u.tx ∧ t.res = u.res ∧ t.cmdKind = u.cmdKind ∧
      t.io.out = u.io.out ∧ t.io.sent = u.io.sent ∧ t.io.taken = u.io.taken ∧
      t.io.inputs = u.io.inputs.tail ∧ t.io.draws = u.io.draws + 1) ∧
    (∀ r, exec i s = .fault r → step s = .fault r)

/-- The order of events in a step (60_exceptions.md R251): `rst`; in a sampling state the abort; then the transport's answer to
the one call the state makes (of the states that are not sampling, Validate, Drain and SendFrame, whatever the abort). -/
def Obligations.EventsAreTakenInOrder : Prop :=
  ∀ s : State,
    (s.ports.rst = true → step s = .next (resetStep s).advance) ∧
    (s.rx.state.samplesAbort = true → s.ports.abort = true → decode s.config s.fetch = .ok (.rxAbort s.rx.state)) ∧
    (s.rx.state = .rxIdle → s.tx.state = .waitAck → s.ports.abort = true → decode s.config s.fetch = .ok .txAbort) ∧
    (s.rx.state = .validate → decode s.config s.fetch = .ok .validate) ∧
    (s.rx.state = .rxIdle → s.tx.state = .drain → decode s.config s.fetch = .ok .drain) ∧
    (s.rx.state = .rxIdle → s.tx.state = .sendFrame → decode s.config s.fetch = .ok .sendFrame) ∧
    (s.ports.abort = false →
      (s.rx.state.pollsByte = true → s.ports.rxAvail = false →
        decode s.config s.fetch = .ok (.rxEmptyPoll s.rx.state)) ∧
      (s.rx.state.pollsByte = true → s.ports.rxAvail = true →
        decode s.config s.fetch = classifyRx s.config s.rx.state s.ports.rxData) ∧
      (s.rx.state = .acknowledge → decode s.config s.fetch = .ok .acknowledge) ∧
      (s.rx.state = .rxIdle → s.tx.state = .waitAck → s.ports.rxAvail = false →
        decode s.config s.fetch = .ok .waitAckEmptyPoll) ∧
      (s.rx.state = .rxIdle → s.tx.state = .waitAck → s.ports.rxAvail = true →
        decode s.config s.fetch = classifyTx s.config .waitAck s.ports.rxData))

/-- The idle step reads the command port (40_commands.md R111): NOP changes nothing and calls nothing, codes 1, 2 and 3 are
accepted in this step; the abort flag is not sampled. -/
def Obligations.IdleStepReadsTheCommandPort : Prop :=
  ∀ s : State, s.rx.state = .rxIdle → s.tx.state = .txIdle → s.ports.rst = false →
    (s.ports.cmd = 0 → ∃ t, step s = .next t ∧ OnlyEdge s t ∧ StepDrives Outputs.low [] [] s t) ∧
    (s.ports.cmd = 1 → step s = advanceOutcome (exec .receivePacket s) ∧
      ∃ t, step s = .next t ∧ t.rx.state = .seekSentinel ∧ t.cmdKind = .receivePacket) ∧
    (s.ports.cmd = 2 →
      step s = advanceOutcome
        (exec (.sendPacket s.ports.operands.dest s.ports.operands.msgType s.ports.operands.payload) s) ∧
      ∃ t, step s = .next t ∧ t.tx.state = .drain ∧ t.cmdKind = .sendPacket) ∧
    (s.ports.cmd = 3 →
      step s = advanceOutcome (exec (.sendPacketSingleByte s.ports.operands.msgType s.ports.operands.value) s) ∧
      ∃ t, step s = .next t ∧ t.tx.state = .drain ∧ t.cmdKind = .sendPacketSingleByte) ∧
    (∀ (p : Ports) (rest : List Ports) (a : Bool), s.io.inputs = p :: rest →
      step s = step { s with io := { s.io with inputs := { p with abort := a } :: rest } })

/-- While the block is busy the command port is not read (40_commands.md R112): whatever stands there, the step is the same. -/
def Obligations.CommandPortIsIgnoredWhileBusy : Prop :=
  ∀ (s : State) (p : Ports) (rest : List Ports) (c : BitVec 2) (o : CmdOperands),
    s.busy = true → s.io.inputs = p :: rest →
    step s = step { s with io := { s.io with inputs := { p with cmd := c, operands := o } :: rest } }

/-- The steps that do not sample the abort signal (60_exceptions.md R250): idle, Validate, Drain, SendFrame, reset.  The value of
`abort_i` in their sample changes nothing. -/
def Obligations.AbortIsNotSampledOutsidePolling : Prop :=
  ∀ (s : State) (p : Ports) (rest : List Ports) (a : Bool), s.io.inputs = p :: rest →
    (p.rst = true ∨ s.rx.state = .validate ∨
      (s.rx.state = .rxIdle ∧ (s.tx.state = .txIdle ∨ s.tx.state = .drain ∨ s.tx.state = .sendFrame))) →
    step s = step { s with io := { s.io with inputs := { p with abort := a } :: rest } }

/-! ### Commands -/

/-- NOP changes no register and calls nothing (40_commands.md R111). -/
def Obligations.NopChangesNothing : Prop :=
  ∀ s : State, ∃ t, exec .nop s = .next t ∧ OnlyEdge s t ∧ Drives Outputs.low [] [] s t

/-- The acceptance of RECEIVE_PACKET (40_commands.md R113). -/
def Obligations.ReceivePacketIsAccepted : Prop :=
  ∀ s : State, ∃ t, exec .receivePacket s = .next t ∧
    t.cmdKind = .receivePacket ∧ t.rx = { s.rx with sentCnt := 0, state := .seekSentinel } ∧
    t.res = { s.res with done := false, pktValid := false } ∧ t.tx = s.tx ∧ t.config = s.config ∧
    Drives Outputs.low [] [] s t

/-- The acceptance of SEND_PACKET and the preparation inside it (40_commands.md R114, 44_sender_framer.md R190 to R194): the
Packet from the operands, its checksum over the first six bytes in index order stored little-endian last, its encoding.  That the elements of `tx_enc` at or
above the encoded length and `tx_pos` keep their values is this model's reading of 10_state.md R23 (log 14). -/
def Obligations.SendPacketIsPrepared : Prop :=
  ∀ (s : State) (d ty : Byte) (p : Vector Byte 4),
    ∃ t, exec (.sendPacket d ty p) s = .next t ∧
      t.cmdKind = .sendPacket ∧ t.res = { s.res with done := false, pktValid := false } ∧
      t.tx.crc = crc16 s.config [d, ty, p[0], p[1], p[2], p[3]] ∧
      t.tx.pkt.toList = [d, ty, p[0], p[1], p[2], p[3], t.tx.crc.extractLsb' 0 8, t.tx.crc.extractLsb' 8 8] ∧
      t.tx.encLen = (s.config.codec.encode t.tx.pkt).2 ∧
      (∀ i : Fin 10, t.tx.enc[i] =
        if i.val < t.tx.encLen.val then (s.config.codec.encode t.tx.pkt).1[i] else s.tx.enc[i]) ∧
      t.tx.attempt = 0 ∧ t.tx.state = .drain ∧ t.tx.pos = s.tx.pos ∧ t.tx.wait = s.tx.wait ∧
      t.rx = s.rx ∧ t.config = s.config ∧ Drives Outputs.low [] [] s t

/-- SEND_PACKET_SINGLE_BYTE behaves as SEND_PACKET to DEFAULT_DEST with the payload `[value 00 00 00]`, but for the recorded
kind (40_commands.md R115, 30_encoding.md R106). -/
def Obligations.SingleByteIsSendPacketToDefaultDest : Prop :=
  ∀ (s : State) (ty v : Byte),
    ∃ t u, exec (.sendPacketSingleByte ty v) s = .next t ∧
      exec (.sendPacket s.config.defaultDest ty #v[v, 0x00, 0x00, 0x00]) s = .next u ∧
      t.cmdKind = .sendPacketSingleByte ∧ t = { u with cmdKind := .sendPacketSingleByte }

/-- `finish(o)` for each of the four outcomes (40_commands.md R116); nothing goes out. -/
def Obligations.EveryOutcomeFinishesTheCommand : Prop :=
  ∀ s : State,
    (∃ t, exec .outOk s = .next t ∧ Finished .ok s t ∧ Drives Outputs.low [] [] s t) ∧
    (∃ t, exec .outReset s = .next t ∧ Finished .reset s t ∧ Drives Outputs.low [] [] s t) ∧
    (∃ t, exec .outChecksumFailed s = .next t ∧ Finished .checksumFailed s t ∧ Drives Outputs.low [] [] s t) ∧
    (∃ t, exec .outSendFailed s = .next t ∧ Finished .sendFailed s t ∧ Drives Outputs.low [] [] s t)

/-! ### Receiver -/

/-- Sentinel detection (41_receiver_framer.md R131, R132, R133): the second consecutive sentinel opens a frame and clears the
count, a first one raises it, any other byte clears it; the byte is taken and nothing else changes. -/
def Obligations.TwoSentinelsOpenAFrame : Prop :=
  ∀ (s : State) (b : Byte),
    (∃ t, exec .seekSentinel s = .next t ∧ OnlyReceiver s t ∧ Drives Outputs.pop [] [0xFF] s t ∧
      (s.rx.sentCnt + 1 = 2 → t.rx = { s.rx with sentCnt := 0, state := .readLength }) ∧
      (s.rx.sentCnt + 1 ≠ 2 → t.rx = { s.rx with sentCnt := s.rx.sentCnt + 1 })) ∧
    (∃ t, exec (.seekOther b) s = .next t ∧ OnlyReceiver s t ∧ Drives Outputs.pop [] [b] s t ∧
      t.rx = { s.rx with sentCnt := 0 })

/-- An accepted length (41_receiver_framer.md R136): length 0 goes straight to Validate. -/
def Obligations.LengthIsAccepted : Prop :=
  ∀ (s : State) (b : Byte),
    ∃ t, exec (.lenAccept b) s = .next t ∧ OnlyReceiver s t ∧ Drives Outputs.pop [] [b] s t ∧
      (b = 0 → t.rx = { s.rx with len := 0, idx := 0, state := .validate }) ∧
      (b ≠ 0 → t.rx = { s.rx with len := b, idx := 0, state := .readBody })

/-- A body byte is stored at `rx_idx`, every other element of `rx_buf` keeps its byte, and the byte that completes the body
leads to Validate (41_receiver_framer.md R138). -/
def Obligations.BodyByteIsStored : Prop :=
  ∀ (s : State) (b : Byte), s.rx.idx < s.rx.buf.length →
    ∃ t, exec (.bodyData b) s = .next t ∧ OnlyReceiver s t ∧ Drives Outputs.pop [] [b] s t ∧
      t.rx.buf.length = s.rx.buf.length ∧ t.rx.buf[s.rx.idx]? = some b ∧
      (∀ i, i ≠ s.rx.idx → t.rx.buf[i]? = s.rx.buf[i]?) ∧
      (s.rx.idx + 1 = s.rx.len.toNat →
        t.rx = { s.rx with buf := t.rx.buf, idx := s.rx.idx + 1, state := .validate }) ∧
      (s.rx.idx + 1 ≠ s.rx.len.toNat → t.rx = { s.rx with buf := t.rx.buf, idx := s.rx.idx + 1 })

/-- The three resynchronisations (42_resync.md R150, R151, R152) and what none of them does (R154): back to SeekSentinel with
the credit 1, 1 or 0; no outcome, no acknowledgement, no yield, no other receiver register. -/
def Obligations.ResynchronisationIsLocal : Prop :=
  ∀ (s : State) (b : Byte),
    (∃ t, exec .lenSentinel s = .next t ∧ OnlyReceiver s t ∧ Drives Outputs.pop [] [0xFF] s t ∧
      t.rx = { s.rx with sentCnt := 1, state := .seekSentinel }) ∧
    (∃ t, exec .bodySentinel s = .next t ∧ OnlyReceiver s t ∧ Drives Outputs.pop [] [0xFF] s t ∧
      t.rx = { s.rx with sentCnt := 1, state := .seekSentinel }) ∧
    (∃ t, exec (.lenOversize b) s = .next t ∧ OnlyReceiver s t ∧ Drives Outputs.pop [] [b] s t ∧
      t.rx = { s.rx with sentCnt := 0, state := .seekSentinel })

/-- An empty poll of the receiver changes no register and yields (41_receiver_framer.md R130). -/
def Obligations.EmptyPollOnlyYields : Prop :=
  ∀ (s : State) (st : RxState),
    ∃ t, exec (.rxEmptyPoll st) s = .next t ∧ OnlyEdge s t ∧ Drives Outputs.pulse [] [] s t

/-- The common shape of a receiving poll iteration (41_receiver_framer.md R130): the abort first, with no byte taken; then no
byte, which yields; then the byte, which is taken and handled by the state's own class, without a yield. -/
def Obligations.ReceivingPollIteration : Prop :=
  ∀ s : State, s.rx.state.pollsByte = true → s.ports.rst = false →
    (s.ports.abort = true →
      ∃ t, step s = .next t ∧ Finished .reset s t ∧ StepDrives Outputs.low [] [] s t) ∧
    (s.ports.abort = false → s.ports.rxAvail = false →
      ∃ t, step s = .next t ∧ OnlyEdge s t ∧ StepDrives Outputs.pulse [] [] s t) ∧
    (s.ports.abort = false → s.ports.rxAvail = true →
      ∃ i, classifyRx s.config s.rx.state s.ports.rxData = .ok i ∧ step s = advanceOutcome (exec i s) ∧
        ∀ t, step s = .next t → OnlyReceiver s t ∧ StepDrives Outputs.pop [] [s.ports.rxData] s t)

/-- Abort in the receiver (60_exceptions.md R248): in each of the four sampling states the step is `finish(Reset)` and nothing
else: no byte taken, none sent, no yield, and no other receiver register. -/
def Obligations.AbortEndsTheReceive : Prop :=
  ∀ s : State,
    (∀ st, ∃ t, exec (.rxAbort st) s = .next t ∧ Finished .reset s t ∧ Drives Outputs.low [] [] s t) ∧
    (s.rx.state = .seekSentinel ∨ s.rx.state = .readLength ∨ s.rx.state = .readBody ∨ s.rx.state = .acknowledge →
      s.ports.rst = false → s.ports.abort = true →
      ∃ t, step s = .next t ∧ Finished .reset s t ∧ t.res.pktValid = false ∧ StepDrives Outputs.low [] [] s t)

/-- Validate, one step (43_crc_validator.md R171 to R176): decode, CRC over the first six bytes, verdict, Acknowledge; it calls
nothing. -/
def Obligations.ValidateComputesTheVerdict : Prop :=
  ∀ s : State, s.rx.len.toNat ≤ s.rx.buf.length →
    ∃ t, exec .validate s = .next t ∧ OnlyReceiver s t ∧ Drives Outputs.low [] [] s t ∧
      (t.rx.pkt, t.rx.vlen) = s.config.codec.decode (s.rx.buf.take s.rx.len.toNat) ∧
      t.rx.crc = crc16 s.config [t.rx.pkt[0], t.rx.pkt[1], t.rx.pkt[2], t.rx.pkt[3], t.rx.pkt[4], t.rx.pkt[5]] ∧
      (t.rx.verdict = .ok ↔
        t.rx.vlen.val = 8 ∧ t.rx.crc = t.rx.pkt[6].zeroExtend 16 ||| (t.rx.pkt[7].zeroExtend 16 <<< 8)) ∧
      t.rx.state = .acknowledge ∧ t.rx.sentCnt = s.rx.sentCnt ∧ t.rx.len = s.rx.len ∧ t.rx.idx = s.rx.idx ∧
      t.rx.buf = s.rx.buf

/-- The body of an intact frame validates (43_crc_validator.md R172, R174; 00_scope.md R12): Validate of the encoding of a Packet
that carries its checksum and that the codec gives back gives that Packet and the verdict Ok. -/
def Obligations.IntactBodyValidatesOk : Prop :=
  ∀ (s : State) (p : Packet), s.config.codec.decode (s.config.codec.body p) = (p, 8) →
    packetChecksum s.config p = embeddedChecksum p →
    s.rx.len.toNat ≤ s.rx.buf.length → s.rx.buf.take s.rx.len.toNat = s.config.codec.body p →
    ∃ t, exec .validate s = .next t ∧ t.rx.pkt = p ∧ t.rx.vlen = 8 ∧ t.rx.verdict = .ok ∧ t.rx.state = .acknowledge

/-- Acknowledge without abort (45_ack_handshake.md R210 to R213): the code of the verdict is offered; taken, it is sent exactly
once and the command ends with the verdict as its outcome; refused, the step yields and no register changes. -/
def Obligations.AcknowledgeSendsTheVerdictOnce : Prop :=
  ∀ (s : State) (a : Byte) (o : CmdOutcome),
    s.rx.verdict = .ok ∧ a = s.config.ackOk ∧ o = .ok ∨
      s.rx.verdict = .checksumFailed ∧ a = s.config.ackCrcFail ∧ o = .checksumFailed →
    (s.ports.txReady = true →
      ∃ t, exec .acknowledge s = .next t ∧ Finished o s t ∧ Drives (Outputs.push a) [a] [] s t) ∧
    (s.ports.txReady = false → ∃ t, exec .acknowledge s = .next t ∧ OnlyEdge s t ∧ Drives Outputs.pulse [] [] s t)

/-- The two ACKOUT instructions are the two bytes Acknowledge can offer (45_ack_handshake.md R211): each offers its code, whatever
the verdict, with what R212 and R213 say of it.  That they are instructions of their own is this model's choice (log 13). -/
def Obligations.AckoutOffersItsCode : Prop :=
  ∀ (s : State) (i : Instr) (a : Byte) (o : CmdOutcome),
    i = .ackoutOk ∧ a = s.config.ackOk ∧ o = .ok ∨ i = .ackoutCrcFail ∧ a = s.config.ackCrcFail ∧ o = .checksumFailed →
    (s.ports.txReady = true → ∃ t, exec i s = .next t ∧ Finished o s t ∧ Drives (Outputs.push a) [a] [] s t) ∧
    (s.ports.txReady = false → ∃ t, exec i s = .next t ∧ OnlyEdge s t ∧ Drives Outputs.pulse [] [] s t)

/-! ### Sender -/

/-- Drain (44_sender_framer.md R195): the attempt is counted, at most one byte is taken and discarded whatever its value, the
position is cleared; no yield. -/
def Obligations.DrainTakesAtMostOneByte : Prop :=
  ∀ s : State,
    ∃ t, exec .drain s = .next t ∧ OnlySender s t ∧
      t.tx = { s.tx with attempt := s.tx.attempt + 1, pos := 0, state := .sendFrame } ∧
      (s.ports.rxAvail = true → Drives Outputs.pop [] [s.ports.rxData] s t) ∧
      (s.ports.rxAvail = false → Drives Outputs.low [] [] s t)

/-- SendFrame (44_sender_framer.md R196, R197, R199): the byte `F[tx_pos]` is offered; taken, the position moves on, and the
last byte leads to WaitAck with the wait cleared; refused, nothing changes.  Every position of `F` has a byte. -/
def Obligations.SendFrameOffersTheByteAtItsPosition : Prop :=
  ∀ s : State,
    (∀ b, ([0xFF, 0xFF, BitVec.ofNat 8 s.tx.encLen.val] ++ s.tx.enc.toList.take s.tx.encLen.val)[s.tx.pos.toNat]? = some b →
      ∃ t, exec .sendFrame s = .next t ∧ OnlySender s t ∧
        (s.ports.txReady = true → Drives (Outputs.push b) [b] [] s t ∧
          (s.tx.pos.toNat + 1 = s.tx.encLen.val + 3 →
            t.tx = { s.tx with pos := s.tx.pos + 1, wait := 0, state := .waitAck }) ∧
          (s.tx.pos.toNat + 1 ≠ s.tx.encLen.val + 3 → t.tx = { s.tx with pos := s.tx.pos + 1 })) ∧
        (s.ports.txReady = false → t.tx = s.tx ∧ Drives Outputs.low [] [] s t)) ∧
    (s.tx.pos.toNat < s.tx.encLen.val + 3 →
      ∃ b, ([0xFF, 0xFF, BitVec.ofNat 8 s.tx.encLen.val] ++ s.tx.enc.toList.take s.tx.encLen.val)[s.tx.pos.toNat]? = some b)

/-- SendFrame has no escape (44_sender_framer.md R198): while the transport refuses, and whatever the abort flag, any number of
steps leaves the sender where it is and yields in none of them. -/
def Obligations.SendFrameHasNoEscape : Prop :=
  ∀ (s : State) (qs rest : List Ports),
    s.rx.state = .rxIdle → s.tx.state = .sendFrame → s.tx.pos.toNat < s.tx.encLen.val + 3 →
    s.io.inputs = qs ++ rest → qs ≠ [] → (∀ q ∈ qs, q.rst = false ∧ q.txReady = false) →
    ∃ t : State, Sys2Proof.core.run qs.length s = .next t ∧ OnlyEdge s t ∧
      t.io.out = Outputs.low ∧ t.io.sent = s.io.sent ∧ t.io.taken = s.io.taken

/-- An empty poll in WaitAck (45_ack_handshake.md R218, R219, R220, R221): it is counted, the bound fails the attempt, a yield
only if configured; without a bound no register changes. -/
def Obligations.EmptyAckPollIsCounted : Prop :=
  ∀ s : State,
    ∃ t, exec .waitAckEmptyPoll s = .next t ∧
      Drives (if s.config.senderAckWaitYield then Outputs.pulse else Outputs.low) [] [] s t ∧
      (s.config.ackWaitPolls = none → OnlyEdge s t) ∧
      (∀ n, s.config.ackWaitPolls = some n →
        (s.tx.wait + 1 ≠ n → t.tx = { s.tx with wait := s.tx.wait + 1 } ∧ OnlySender s t) ∧
        (s.tx.wait + 1 = n → AttemptFailed { s with tx := { s.tx with wait := s.tx.wait + 1 } } t))

/-- The acknowledgement byte (45_ack_handshake.md R216, R217, R220): the OK code ends the command Ok, any other byte fails the
attempt; of the instructions, and of the step in WaitAck that takes the byte. -/
def Obligations.AcknowledgementDecidesTheAttempt : Prop :=
  ∀ s : State,
    (∃ t, exec .ackOk s = .next t ∧ Finished .ok s t ∧ Drives Outputs.pop [] [s.config.ackOk] s t) ∧
    (∀ b, ∃ t, exec (.ackNotOk b) s = .next t ∧ AttemptFailed s t ∧ Drives Outputs.pop [] [b] s t) ∧
    (s.rx.state = .rxIdle → s.tx.state = .waitAck → s.ports.rst = false → s.ports.abort = false → s.ports.rxAvail = true →
      (s.ports.rxData = s.config.ackOk →
        ∃ t, step s = .next t ∧ Finished .ok s t ∧ StepDrives Outputs.pop [] [s.ports.rxData] s t) ∧
      (s.ports.rxData ≠ s.config.ackOk →
        ∃ t, step s = .next t ∧ AttemptFailed s t ∧ StepDrives Outputs.pop [] [s.ports.rxData] s t))

/-- Abort in the sender (60_exceptions.md R249): in WaitAck the step is `finish(Reset)` and nothing else; a waiting byte is not
taken, the counters keep their values. -/
def Obligations.AbortEndsTheSend : Prop :=
  ∀ s : State,
    (∃ t, exec .txAbort s = .next t ∧ Finished .reset s t ∧ Drives Outputs.low [] [] s t) ∧
    (s.rx.state = .rxIdle → s.tx.state = .waitAck → s.ports.rst = false → s.ports.abort = true →
      ∃ t, step s = .next t ∧ Finished .reset s t ∧ t.tx.wait = s.tx.wait ∧ t.tx.attempt = s.tx.attempt ∧
        StepDrives Outputs.low [] [] s t)

/-! ### Reset -/

/-- The reset step (10_state.md R46): in any state, whatever else the sample holds, every register takes the value of the table
and nothing is called or sampled; of the five buffers only the sizes are said. -/
def Obligations.ResetStepRestoresEveryRegister : Prop :=
  ∀ s : State, s.ports.rst = true →
    ∃ t, step s = .next t ∧
      t.rx.state = .rxIdle ∧ t.tx.state = .txIdle ∧
      t.rx.sentCnt = 0 ∧ t.rx.len = 0 ∧ t.rx.idx = 0 ∧ t.rx.vlen = 0 ∧ t.rx.verdict = .ok ∧
      t.rx.crc = s.config.crcInit ∧ t.tx.crc = s.config.crcInit ∧
      t.tx.encLen = 0 ∧ t.tx.pos = 0 ∧ t.tx.attempt = 0 ∧ t.tx.wait = 0 ∧ t.cmdKind = .nop ∧
      t.res.done = false ∧ t.res.outcome = .ok ∧ t.res.pktValid = false ∧
      t.rx.buf.length = s.rx.buf.length ∧ StepDrives Outputs.low [] [] s t ∧
      ∀ (p : Ports) (rest : List Ports) (a : Bool), s.io.inputs = p :: rest →
        step s = step { s with io := { s.io with inputs := { p with abort := a } :: rest } }

/-- The state right after reset has the values of 10_state.md R46, for every configuration; and `State.reset` is that of the
reference configuration, which is this model's choice (log 2). -/
def Obligations.StateAfterReset : Prop :=
  (∀ cfg : Config,
    (State.resetWith cfg).config = cfg ∧ (State.resetWith cfg).busy = false ∧
    (State.resetWith cfg).rx.sentCnt = 0 ∧ (State.resetWith cfg).rx.len = 0 ∧ (State.resetWith cfg).rx.idx = 0 ∧
    (State.resetWith cfg).rx.vlen = 0 ∧ (State.resetWith cfg).rx.verdict = .ok ∧
    (State.resetWith cfg).rx.crc = cfg.crcInit ∧ (State.resetWith cfg).tx.crc = cfg.crcInit ∧
    (State.resetWith cfg).rx.buf.length = cfg.maxBodyLen ∧
    (State.resetWith cfg).tx.encLen = 0 ∧ (State.resetWith cfg).tx.pos = 0 ∧ (State.resetWith cfg).tx.attempt = 0 ∧
    (State.resetWith cfg).tx.wait = 0 ∧ (State.resetWith cfg).cmdKind = .nop ∧
    (State.resetWith cfg).res.done = false ∧ (State.resetWith cfg).res.outcome = .ok ∧
    (State.resetWith cfg).res.pktValid = false) ∧
  State.reset = State.resetWith Config.reference

/-- Reset meets the three invariants, for every configuration 00_scope.md R7 allows. -/
def Obligations.ResetMeetsTheInvariants : Prop :=
  ∀ cfg : Config, cfg.wf = true →
    ControlInv (State.resetWith cfg) ∧ ResultInv (State.resetWith cfg) ∧ SenderInv (State.resetWith cfg)

/-! ### Invariants and whole-machine rules -/

/-- Every step keeps the invariant of the two state machines: at most one active, every counter and index in its range, no
sentinel among the stored body bytes (10_state.md R21, R25 to R28, R35 to R37, 41_receiver_framer.md R137, R139).  `tx_pos` is
within the longest frame always, and within `tx_enc_len + 3` (R35) everywhere but between an acceptance and the Drain of the
first attempt, which is this model's reading (log 14); the sentinel count is 0 in ReadLength, ReadBody, Validate and Acknowledge
and may be 1 in SeekSentinel and, after an abort there, in RxIdle. -/
def Obligations.StepKeepsTheControlInvariant : Prop :=
  ∀ s t : State, ControlInv s → step s = .next t → ControlInv t

/-- Every step keeps the invariant of the result port: a Packet shown as valid carries its own checksum, and it is shown exactly
after a receive that ended Ok (10_state.md R38, 43_crc_validator.md R174, R176, 60_exceptions.md R241, R242). -/
def Obligations.StepKeepsTheResultInvariant : Prop :=
  ∀ s t : State, ControlInv s → ResultInv s → step s = .next t → ResultInv t

/-- Every step keeps the invariant of a running send: the Packet in flight carries its checksum and `tx_enc` is its encoding, in
every attempt (44_sender_framer.md R190 to R193, R201). -/
def Obligations.StepKeepsTheSenderInvariant : Prop :=
  ∀ s t : State, SenderInv s → step s = .next t → SenderInv t

/-- No fault is reached: from every state that meets the control invariant, whatever the port sample, a step answers a next
state. -/
def Obligations.NoStepStopsUnderTheInvariant : Prop :=
  ∀ s : State, ControlInv s → ∃ t, step s = .next t

/-- The model's own faults (log 9) are exactly the accesses to elements that do not exist, for which the spec has no effect because
no run makes them (20_memory.md R61); no other instruction stops. -/
def Obligations.OnlyMissingElementsFault : Prop :=
  ∀ s : State,
    (∀ b, exec (.bodyData b) s = .fault .rxBufIndex ↔ s.rx.buf.length ≤ s.rx.idx) ∧
    (exec .validate s = .fault .rxBufIndex ↔ s.rx.buf.length < s.rx.len.toNat) ∧
    (exec .sendFrame s = .fault .frameIndex ↔ s.tx.encLen.val + 3 ≤ s.tx.pos.toNat) ∧
    (∀ (i : Instr) (r : Fault), exec i s = .fault r → i = .validate ∨ i = .sendFrame ∨ ∃ b, i = .bodyData b)

/-- No step changes a parameter (00_scope.md R8). -/
def Obligations.NoStepChangesTheConfiguration : Prop :=
  ∀ s t : State, step s = .next t → t.config = s.config

/-- The frame of the current send command holds `0xFF` at positions 0 and 1 and nowhere else (44_sender_framer.md R202), if the
codec's output for its Packet has no sentinel. -/
def Obligations.FrameHoldsSentinelsOnlyAtItsStart : Prop :=
  ∀ s : State, SenderInv s → s.tx.state ≠ .txIdle → sentinel ∉ s.config.codec.body s.tx.pkt →
    ∀ (k : Nat) (b : Byte), s.frame[k]? = some b → (b = 0xFF ↔ k < 2)

/-- What a host may rely on about `pkt_o` and `outcome_o` (10_state.md R38, 40_commands.md R120): without `rst`, `res_pkt` changes only
in an Acknowledge step that delivers the Packet of a receive whose verdict is Ok and whose acknowledgement was taken, and
`res_outcome` only in a step that ends a command. -/
def Obligations.ResultsChangeOnlyWhenACommandEnds : Prop :=
  ∀ s t : State, ControlInv s → s.ports.rst = false → step s = .next t →
    (t.res.pkt ≠ s.res.pkt →
      s.rx.state = .acknowledge ∧ s.rx.verdict = .ok ∧ s.ports.abort = false ∧ s.ports.txReady = true ∧
      t.res.pkt = s.rx.pkt ∧ t.res.pktValid = true ∧ t.res.outcome = .ok) ∧
    (t.res.outcome ≠ s.res.outcome → s.busy = true ∧ t.busy = false ∧ t.res.done = true)

/-- What a host may rely on about `busy_o`, `done_o` and `pkt_valid_o` (10_state.md R38, R44, 40_commands.md R113 to R116, 90_conflicts.md
C9): without `rst`, the block gets busy only by accepting a command, which clears the other two, and idle only by ending one,
which sets `res_done`; `res_done` rises only where a command ends and falls only at an acceptance; `res_pkt_valid` rises only
where a receive ends Ok and, of a state in which a running command shows no valid Packet, falls only at an acceptance. -/
def Obligations.ResultFlagsFollowTheCommands : Prop :=
  ∀ s t : State, s.ports.rst = false → step s = .next t →
    (s.busy = false → t.busy = true → s.ports.cmd ≠ 0 ∧ t.res.done = false ∧ t.res.pktValid = false) ∧
    (s.busy = true → t.busy = false → t.res.done = true) ∧
    (s.res.done = false → t.res.done = true → s.busy = true ∧ t.busy = false) ∧
    (s.res.done = true → t.res.done = false → s.busy = false ∧ t.busy = true) ∧
    (s.res.pktValid = false → t.res.pktValid = true →
      s.busy = true ∧ t.busy = false ∧ s.cmdKind = .receivePacket ∧ t.res.outcome = .ok) ∧
    (ResultInv s → s.res.pktValid = true → t.res.pktValid = false → s.busy = false ∧ t.busy = true)

/-- Every transition of `rx_state` (41_receiver_framer.md R139): without `rst`, if the state changes, it is one of these. -/
def Obligations.ReceiverTransitionsAreComplete : Prop :=
  ∀ s t : State, s.ports.rst = false → step s = .next t → t.rx.state ≠ s.rx.state →
    (s.rx.state = .rxIdle ∧ s.tx.state = .txIdle ∧ s.ports.cmd = 1 ∧ t.rx.state = .seekSentinel ∧ t.rx.sentCnt = 0) ∨
    (s.rx.state.samplesAbort = true ∧ s.ports.abort = true ∧ t.rx.state = .rxIdle ∧ t.res.outcome = .reset ∧
      t.rx.sentCnt = s.rx.sentCnt) ∨
    (s.rx.state = .seekSentinel ∧ s.tryRecv = some 0xFF ∧ s.rx.sentCnt = 1 ∧ t.rx.state = .readLength ∧ t.rx.sentCnt = 0) ∨
    (s.rx.state = .readLength ∧ s.tryRecv = some 0xFF ∧ t.rx.state = .seekSentinel ∧ t.rx.sentCnt = 1) ∨
    (s.rx.state = .readLength ∧ (∃ b, s.tryRecv = some b ∧ b ≠ 0xFF ∧ s.config.maxBodyLen < b.toNat) ∧
      t.rx.state = .seekSentinel ∧ t.rx.sentCnt = 0) ∨
    (s.rx.state = .readLength ∧
      (∃ b, s.tryRecv = some b ∧ 1 ≤ b.toNat ∧ b.toNat ≤ s.config.maxBodyLen ∧ t.rx.len = b ∧ t.rx.idx = 0) ∧
      t.rx.state = .readBody ∧ t.rx.sentCnt = s.rx.sentCnt) ∨
    (s.rx.state = .readLength ∧ s.tryRecv = some 0 ∧ t.rx.len = 0 ∧ t.rx.idx = 0 ∧ t.rx.state = .validate ∧
      t.rx.sentCnt = s.rx.sentCnt) ∨
    (s.rx.state = .readBody ∧ s.tryRecv = some 0xFF ∧ t.rx.state = .seekSentinel ∧ t.rx.sentCnt = 1) ∨
    (s.rx.state = .readBody ∧ (∃ b, s.tryRecv = some b ∧ b ≠ 0xFF) ∧ s.rx.idx + 1 = s.rx.len.toNat ∧
      t.rx.idx = s.rx.idx + 1 ∧ t.rx.state = .validate ∧ t.rx.sentCnt = s.rx.sentCnt) ∨
    (s.rx.state = .validate ∧ t.rx.state = .acknowledge ∧ t.rx.sentCnt = s.rx.sentCnt) ∨
    (s.rx.state = .acknowledge ∧ s.ports.abort = false ∧ s.ports.txReady = true ∧ t.rx.state = .rxIdle ∧
      t.res.outcome = verdictOutcome s.rx.verdict ∧ t.rx.sentCnt = s.rx.sentCnt)

/-- Every transition of `tx_state` (44_sender_framer.md R200): without `rst` and with the receiver idle, if the state changes, it
is one of these. -/
def Obligations.SenderTransitionsAreComplete : Prop :=
  ∀ s t : State, s.ports.rst = false → s.rx.state = .rxIdle → step s = .next t → t.tx.state ≠ s.tx.state →
    (s.tx.state = .txIdle ∧ (s.ports.cmd = 2 ∨ s.ports.cmd = 3) ∧ t.tx.state = .drain ∧ t.tx.attempt = 0) ∨
    (s.tx.state = .drain ∧ t.tx.state = .sendFrame ∧ t.tx.attempt = s.tx.attempt + 1 ∧ t.tx.pos = 0) ∨
    (s.tx.state = .sendFrame ∧ s.ports.txReady = true ∧ s.tx.pos.toNat + 1 = s.tx.encLen.val + 3 ∧ t.tx.state = .waitAck ∧
      t.tx.pos = s.tx.pos + 1 ∧ t.tx.wait = 0) ∨
    (s.tx.state = .waitAck ∧ s.ports.abort = true ∧ t.tx.state = .txIdle ∧ t.res.outcome = .reset) ∨
    (s.tx.state = .waitAck ∧ s.ports.abort = false ∧ s.tryRecv = some s.config.ackOk ∧ t.tx.state = .txIdle ∧
      t.res.outcome = .ok) ∨
    (s.tx.state = .waitAck ∧ s.ports.abort = false ∧
      ((∃ b, s.tryRecv = some b ∧ b ≠ s.config.ackOk) ∨
        (s.tryRecv = none ∧ s.config.ackWaitPolls = some (s.tx.wait + 1) ∧ t.tx.wait = s.tx.wait + 1)) ∧
      ((s.tx.attempt ≠ s.config.maxSendAttempts ∧ t.tx.state = .drain) ∨
        (s.tx.attempt = s.config.maxSendAttempts ∧ t.tx.state = .txIdle ∧ t.res.outcome = .sendFailed)))

/-- One call to the transport in a step (00_scope.md R10, 10_state.md R42, 20_memory.md R58, R59): never a byte taken and a byte
sent, no yield with either; a byte is taken only if one was offered and is that byte, a byte is sent only if the transport was
ready, and each stream grows by exactly that byte. -/
def Obligations.OneTransportCallPerStep : Prop :=
  ∀ s t : State, step s = .next t →
    (t.io.out = Outputs.low ∧ t.io.sent = s.io.sent ∧ t.io.taken = s.io.taken) ∨
    (t.io.out = Outputs.pulse ∧ t.io.sent = s.io.sent ∧ t.io.taken = s.io.taken) ∨
    (t.io.out = Outputs.pop ∧ s.ports.rxAvail = true ∧ t.io.sent = s.io.sent ∧
      t.io.taken = s.io.taken ++ [s.ports.rxData]) ∨
    (∃ b, t.io.out = Outputs.push b ∧ s.ports.txReady = true ∧ t.io.sent = s.io.sent ++ [b] ∧ t.io.taken = s.io.taken)

/-- Where bytes go: a byte is taken only by a polling receiver, by Drain or by WaitAck (44_sender_framer.md R203); a byte is sent
only by Acknowledge, and then it is the code of the verdict (45_ack_handshake.md R211), or by SendFrame, and then it is the
frame's byte at the position (44_sender_framer.md R197, R201). -/
def Obligations.BytesMoveOnlyWhereTheRulesSay : Prop :=
  ∀ s t : State, step s = .next t →
    (t.io.out.rxPop = true → s.rx.state.pollsByte = true ∨
      (s.rx.state = .rxIdle ∧ (s.tx.state = .drain ∨ s.tx.state = .waitAck))) ∧
    (∀ b, t.io.out.txPush = some b →
      (s.rx.state = .acknowledge ∧ s.ports.abort = false ∧
        (s.rx.verdict = .ok → b = s.config.ackOk) ∧ (s.rx.verdict = .checksumFailed → b = s.config.ackCrcFail)) ∨
      (s.rx.state = .rxIdle ∧ s.tx.state = .sendFrame ∧ s.frame[s.tx.pos.toNat]? = some b))

/-! ### Runs -/

/-- The parity of a run of sentinels (41_receiver_framer.md R140): a run of `k` sentinels met in SeekSentinel with count 0 or in
ReadBody leaves the receiver in ReadLength when `k` is even and in SeekSentinel with count 1 when `k` is odd; the byte after it
is a length exactly when `k` is even. -/
def Obligations.SentinelRunParity : Prop :=
  ∀ (s : State) (qs rest : List Ports) (q : Ports) (b : Byte),
    (s.rx.state = .seekSentinel ∧ s.rx.sentCnt = 0) ∨ s.rx.state = .readBody →
    s.io.inputs = qs ++ q :: rest → qs ≠ [] → (∀ r ∈ qs, Ports.delivers 0xFF r) → Ports.delivers b q → b ≠ 0xFF →
    ∃ t u : State, Sys2Proof.core.run qs.length s = .next t ∧ Sys2Proof.core.run (qs.length + 1) s = .next u ∧
      OnlyReceiver s t ∧ OnlyReceiver s u ∧
      (qs.length % 2 = 0 →
        t.rx = { s.rx with sentCnt := 0, state := .readLength } ∧
        (b.toNat ≤ s.config.maxBodyLen → u.rx.len = b ∧ u.rx.idx = 0) ∧
        (s.config.maxBodyLen < b.toNat → u.rx = { s.rx with sentCnt := 0, state := .seekSentinel })) ∧
      (qs.length % 2 = 1 →
        t.rx = { s.rx with sentCnt := 1, state := .seekSentinel } ∧
        u.rx = { s.rx with sentCnt := 0, state := .seekSentinel })

/-- A whole frame is received and delivered (41_receiver_framer.md R131 to R138, 43_crc_validator.md R171 to R174,
45_ack_handshake.md R212; the exchange of R222 seen from the receiver): from SeekSentinel with count 0, a frame of a Packet that
carries its checksum and for which the codec keeps its contract (00_scope.md R12), then two samples without reset, the second
without abort and with a ready transport: the command ends Ok, that Packet is shown, one byte was sent and it is `ACK_OK`. -/
def Obligations.WholeFrameIsDelivered : Prop :=
  ∀ (s : State) (p : Packet) (qs rest : List Ports) (v a : Ports),
    ControlInv s → sentinel ∉ s.config.codec.body p → s.config.codec.decode (s.config.codec.body p) = (p, 8) →
    packetChecksum s.config p = embeddedChecksum p →
    s.rx.state = .seekSentinel → s.rx.sentCnt = 0 →
    s.io.inputs = qs ++ v :: a :: rest →
    List.Forall₂ Ports.delivers
      ([0xFF, 0xFF, BitVec.ofNat 8 (s.config.codec.body p).length] ++ s.config.codec.body p) qs →
    v.rst = false → a.rst = false → a.abort = false → a.txReady = true →
    ∃ t : State, Sys2Proof.core.run (qs.length + 2) s = .next t ∧
      t.busy = false ∧ t.res.done = true ∧ t.res.outcome = .ok ∧ t.res.pktValid = true ∧ t.res.pkt = p ∧
      t.io.sent = s.io.sent ++ [s.config.ackOk] ∧
      t.io.taken = s.io.taken ++ ([0xFF, 0xFF, BitVec.ofNat 8 (s.config.codec.body p).length] ++ s.config.codec.body p)

/-- An attempt hands over the whole frame, once and in order, whatever the abort flag (44_sender_framer.md R196, R197, R201,
60_exceptions.md R255): from Drain, with a transport that takes every byte, `1 + |F|` steps reach WaitAck. -/
def Obligations.AttemptHandsOverTheFrame : Prop :=
  ∀ (s : State) (qs rest : List Ports),
    s.rx.state = .rxIdle → s.tx.state = .drain → s.io.inputs = qs ++ rest → qs.length = 1 + (s.tx.encLen.val + 3) →
    (∀ q ∈ qs, q.rst = false ∧ q.txReady = true) →
    ∃ t : State, Sys2Proof.core.run qs.length s = .next t ∧
      t.tx = { s.tx with attempt := s.tx.attempt + 1, pos := BitVec.ofNat 4 (s.tx.encLen.val + 3), wait := 0, state := .waitAck } ∧
      OnlySender s t ∧ t.io.sent = s.io.sent ++ s.frame

/-- Retry exhaustion (45_ack_handshake.md R226): on a silent link a send command takes exactly
`MAX_SEND_ATTEMPTS * (1 + |F| + ACK_WAIT_POLLS)` steps after its acceptance and ends SendFailed; the frame went out once per
attempt, nothing was taken, and the block was busy until the last step.  It rests on the bounded wait, which the spec chose
(90_conflicts.md C1) and which is a hypothesis here (log 15). -/
def Obligations.RetryExhaustionTakesExactlyItsSteps : Prop :=
  ∀ (s : State) (n : Nat) (qs rest : List Ports),
    s.config.wf = true → s.config.ackWaitPolls = some n →
    s.rx.state = .rxIdle → s.tx.state = .drain → s.tx.attempt = 0 →
    s.io.inputs = qs ++ rest → (∀ q ∈ qs, Ports.silent q) →
    qs.length = s.config.maxSendAttempts * (1 + (s.tx.encLen.val + 3) + n) →
    (∃ t : State, Sys2Proof.core.run qs.length s = .next t ∧ t.busy = false ∧ t.res.done = true ∧ t.res.outcome = .sendFailed ∧
      t.res.pktValid = false ∧ t.tx.attempt = s.config.maxSendAttempts ∧
      t.io.sent = s.io.sent ++ (List.replicate s.config.maxSendAttempts s.frame).flatten ∧ t.io.taken = s.io.taken) ∧
    (∀ k, k < qs.length → ∃ u : State, Sys2Proof.core.run k s = .next u ∧ u.busy = true)

/-! ### Codec and CRC -/

/-- The reference codec meets the contract (30_encoding.md R91, R92, R93, 00_scope.md R12): no sentinel in its output, at most 10
bytes, and its decoder gives back every Packet with 8 bytes recovered; `valid_len` is 8 exactly from 10 bytes on. -/
def Obligations.ReferenceCodecIsLawful : Prop :=
  Codec.reference.Lawful ∧ (∀ p, (Codec.reference.body p).length = 10) ∧
  (∀ (p : Packet) (b : Byte), b ∈ Codec.reference.body p → b.toNat ≤ 0x7F) ∧
  (∀ src : List Byte, (Codec.reference.decode src).2.val = min 8 (7 * src.length / 8)) ∧
  (∀ src : List Byte, (Codec.reference.decode src).2 = 8 ↔ 10 ≤ src.length)

/-- Single-bit detection (43_crc_validator.md R179 (b)) of the reference and of the alternative CRC, from any start value. -/
def Obligations.SingleBitChangesAreDetected : Prop :=
  ∀ (cfg : Config) (x y : List Byte), cfg.crc = .msbFirst1021 ∨ cfg.crc = .lsbFirstA001 →
    x.length = 6 → OneBitApart x y → crc16 cfg x ≠ crc16 cfg y
end

