-- ==== Sys2Proof/Laws/Decode.lean ====
section
/-! SUPPORT. The codes and the fields of the decoded words: each enumeration's code reads back, and the two fields of a byte
word are what it was put together from. -/

namespace Sys2Proof

@[simp] theorem RxState.ofCode_code (st : RxState) : RxState.ofCode st.code = some st := by cases st <;> decide
@[simp] theorem TxState.ofCode_code (st : TxState) : TxState.ofCode st.code = st := by cases st <;> decide
@[simp] theorem Command.ofCode_code (c : Command) : Command.ofCode c.code = c := by cases c <;> decide
@[simp] theorem CmdOutcome.ofCode_code (o : CmdOutcome) : CmdOutcome.ofCode o.code = o := by cases o <;> decide

theorem RxState.code_of_ofCode {w : BitVec 3} {st : RxState} (h : RxState.ofCode w = some st) : w = st.code := by
  revert st; revert w; decide +revert

theorem TxState.code_ofCode (w : BitVec 2) : (TxState.ofCode w).code = w := by revert w; decide
theorem Command.code_ofCode (w : BitVec 2) : (Command.ofCode w).code = w := by revert w; decide
theorem CmdOutcome.code_ofCode (w : BitVec 2) : (CmdOutcome.ofCode w).code = w := by revert w; decide

/-- The byte of a word `state ‖ byte`. -/
@[simp] theorem extract_byte {n : Nat} (c : BitVec n) (b : Byte) : (c ++ b).extractLsb' 0 8 = b := by
  apply BitVec.eq_of_getLsbD_eq
  intro i hi
  simp [BitVec.getLsbD_append, hi]

/-- The state code of a word `state ‖ byte`. -/
@[simp] theorem extract_state {n : Nat} (c : BitVec n) (b : Byte) : (c ++ b).extractLsb' 8 n = c := by
  apply BitVec.eq_of_getLsbD_eq
  intro i hi
  simp [BitVec.getLsbD_append, hi]

/-- A byte word is its state code followed by its byte. -/
theorem append_extract {n : Nat} (w : BitVec (n + 8)) : w.extractLsb' 8 n ++ w.extractLsb' 0 8 = w := by
  simp

/-- Decoding an RXBYTE word put together from a state and a byte is classifying the byte in that state. -/
@[simp] theorem decodeRxByte_append (cfg : Config) (st : RxState) (b : Byte) :
    decodeRxByte cfg (st.code ++ b) = classifyRx cfg st b := by
  have h1 : (st.code ++ b : BitVec 11).extractLsb' 8 3 = st.code := extract_state st.code b
  have h2 : (st.code ++ b : BitVec 11).extractLsb' 0 8 = b := extract_byte st.code b
  simp [decodeRxByte, h1, h2]

/-- Decoding an RXSTEP word of a state. -/
@[simp] theorem decodeRxStep_code (st : RxState) (c : Conditions) : decodeRxStep st.code c = classifyRxStep st c := by
  simp [decodeRxStep]

/-- Decoding a TXBYTE word put together from a state and a byte. -/
@[simp] theorem decodeTxByte_append (cfg : Config) (st : TxState) (b : Byte) :
    decodeTxByte cfg (st.code ++ b) = classifyTx cfg st b := by
  have h1 : (st.code ++ b : BitVec 10).extractLsb' 8 2 = st.code := extract_state st.code b
  have h2 : (st.code ++ b : BitVec 10).extractLsb' 0 8 = b := extract_byte st.code b
  simp [decodeTxByte, h1, h2]

end Sys2Proof
end

