-- ==== Sys2Proof/Laws/State.lean ====
section
/-! SUPPORT. One lemma per field per update of the state: what each edge operation reads back as. -/

namespace Sys2Proof.Machine

open Sys2Proof

@[simp] theorem State.quiet_config (s : State) : s.quiet.config = s.config := rfl
@[simp] theorem State.quiet_rx (s : State) : s.quiet.rx = s.rx := rfl
@[simp] theorem State.quiet_tx (s : State) : s.quiet.tx = s.tx := rfl
@[simp] theorem State.quiet_res (s : State) : s.quiet.res = s.res := rfl
@[simp] theorem State.quiet_cmdKind (s : State) : s.quiet.cmdKind = s.cmdKind := rfl
@[simp] theorem State.quiet_out (s : State) : s.quiet.io.out = Outputs.low := rfl
@[simp] theorem State.quiet_sent (s : State) : s.quiet.io.sent = s.io.sent := rfl
@[simp] theorem State.quiet_taken (s : State) : s.quiet.io.taken = s.io.taken := rfl
@[simp] theorem State.quiet_inputs (s : State) : s.quiet.io.inputs = s.io.inputs := rfl
@[simp] theorem State.quiet_draws (s : State) : s.quiet.io.draws = s.io.draws := rfl

@[simp] theorem State.took_config (s : State) (b : Byte) : (s.took b).config = s.config := rfl
@[simp] theorem State.took_rx (s : State) (b : Byte) : (s.took b).rx = s.rx := rfl
@[simp] theorem State.took_tx (s : State) (b : Byte) : (s.took b).tx = s.tx := rfl
@[simp] theorem State.took_res (s : State) (b : Byte) : (s.took b).res = s.res := rfl
@[simp] theorem State.took_cmdKind (s : State) (b : Byte) : (s.took b).cmdKind = s.cmdKind := rfl
@[simp] theorem State.took_out (s : State) (b : Byte) : (s.took b).io.out = { Outputs.low with rxPop := true } := rfl
@[simp] theorem State.took_sent (s : State) (b : Byte) : (s.took b).io.sent = s.io.sent := rfl
@[simp] theorem State.took_taken (s : State) (b : Byte) : (s.took b).io.taken = s.io.taken ++ [b] := rfl
@[simp] theorem State.took_inputs (s : State) (b : Byte) : (s.took b).io.inputs = s.io.inputs := rfl
@[simp] theorem State.took_draws (s : State) (b : Byte) : (s.took b).io.draws = s.io.draws := rfl

@[simp] theorem State.pushed_config (s : State) (b : Byte) : (s.pushed b).config = s.config := rfl
@[simp] theorem State.pushed_rx (s : State) (b : Byte) : (s.pushed b).rx = s.rx := rfl
@[simp] theorem State.pushed_tx (s : State) (b : Byte) : (s.pushed b).tx = s.tx := rfl
@[simp] theorem State.pushed_res (s : State) (b : Byte) : (s.pushed b).res = s.res := rfl
@[simp] theorem State.pushed_cmdKind (s : State) (b : Byte) : (s.pushed b).cmdKind = s.cmdKind := rfl
@[simp] theorem State.pushed_out (s : State) (b : Byte) : (s.pushed b).io.out = { Outputs.low with txPush := some b } := rfl
@[simp] theorem State.pushed_sent (s : State) (b : Byte) : (s.pushed b).io.sent = s.io.sent ++ [b] := rfl
@[simp] theorem State.pushed_taken (s : State) (b : Byte) : (s.pushed b).io.taken = s.io.taken := rfl
@[simp] theorem State.pushed_inputs (s : State) (b : Byte) : (s.pushed b).io.inputs = s.io.inputs := rfl
@[simp] theorem State.pushed_draws (s : State) (b : Byte) : (s.pushed b).io.draws = s.io.draws := rfl

@[simp] theorem State.yielded_config (s : State) : s.yielded.config = s.config := rfl
@[simp] theorem State.yielded_rx (s : State) : s.yielded.rx = s.rx := rfl
@[simp] theorem State.yielded_tx (s : State) : s.yielded.tx = s.tx := rfl
@[simp] theorem State.yielded_res (s : State) : s.yielded.res = s.res := rfl
@[simp] theorem State.yielded_cmdKind (s : State) : s.yielded.cmdKind = s.cmdKind := rfl
@[simp] theorem State.yielded_out (s : State) : s.yielded.io.out = { Outputs.low with yield := true } := rfl
@[simp] theorem State.yielded_sent (s : State) : s.yielded.io.sent = s.io.sent := rfl
@[simp] theorem State.yielded_taken (s : State) : s.yielded.io.taken = s.io.taken := rfl
@[simp] theorem State.yielded_inputs (s : State) : s.yielded.io.inputs = s.io.inputs := rfl
@[simp] theorem State.yielded_draws (s : State) : s.yielded.io.draws = s.io.draws := rfl

@[simp] theorem State.advance_config (s : State) : s.advance.config = s.config := rfl
@[simp] theorem State.advance_rx (s : State) : s.advance.rx = s.rx := rfl
@[simp] theorem State.advance_tx (s : State) : s.advance.tx = s.tx := rfl
@[simp] theorem State.advance_res (s : State) : s.advance.res = s.res := rfl
@[simp] theorem State.advance_cmdKind (s : State) : s.advance.cmdKind = s.cmdKind := rfl
@[simp] theorem State.advance_out (s : State) : s.advance.io.out = s.io.out := rfl
@[simp] theorem State.advance_sent (s : State) : s.advance.io.sent = s.io.sent := rfl
@[simp] theorem State.advance_taken (s : State) : s.advance.io.taken = s.io.taken := rfl
@[simp] theorem State.advance_inputs (s : State) : s.advance.io.inputs = s.io.inputs.tail := rfl
@[simp] theorem State.advance_draws (s : State) : s.advance.io.draws = s.io.draws + 1 := rfl

end Sys2Proof.Machine
end

