-- ==== Sys2Proof/Laws/Ops.lean ====
section
/-! SUPPORT. What each shared operation can do, said once: the port sample, `finish`, the failed attempt, acceptance, the
accesses to `rx_buf`, the frame. -/

namespace Sys2Proof.Machine

open Sys2Proof

/-! ### The configuration -/

/-- What 00_scope.md R7 asks of a configuration, one by one. -/
theorem wf_facts {c : Config} (h : c.wf = true) :
    10 ≤ c.maxBodyLen ∧ c.maxBodyLen ≤ 254 ∧ 1 ≤ c.maxSendAttempts ∧ c.ackCrcFail ≠ c.ackOk ∧
    ∀ n, c.ackWaitPolls = some n → 1 ≤ n := by
  rw [Config.wf, codecMaxLen] at h
  simp only [Bool.and_eq_true, decide_eq_true_iff] at h
  obtain ⟨⟨⟨⟨h1, h2⟩, h3⟩, h4⟩, h5⟩ := h
  exact ⟨h1, h2, h3, h4, fun n hn => by simpa [hn] using h5⟩

/-! ### The port sample -/

theorem State.ports_of_inputs {s : State} {p : Ports} {rest : List Ports} (h : s.io.inputs = p :: rest) : s.ports = p := by
  simp [State.ports, h]

theorem State.tryRecv_eq_none {s : State} : s.tryRecv = none ↔ s.ports.rxAvail = false := by
  simp [State.tryRecv]

theorem State.tryRecv_eq_some {s : State} {b : Byte} :
    s.tryRecv = some b ↔ s.ports.rxAvail = true ∧ s.ports.rxData = b := by
  simp [State.tryRecv]

/-- An empty poll in WaitAck touches only the edge. -/
theorem State.waitPolled_onlyEdge (s : State) : OnlyEdge s s.waitPolled := by
  unfold State.waitPolled; split <;> simp [OnlyEdge]

/-- The one `TryRecv` of Drain touches only the edge. -/
theorem State.drained_onlyEdge (s : State) : OnlyEdge s s.drained := by
  unfold State.drained; split <;> simp [OnlyEdge]

/-! ### `finish` -/

@[simp] theorem finish_config (o : CmdOutcome) (s : State) : (finish o s).config = s.config := by unfold finish; split <;> rfl
@[simp] theorem finish_rx (o : CmdOutcome) (s : State) : (finish o s).rx = { s.rx with state := .rxIdle } := by
  unfold finish; split <;> rfl
@[simp] theorem finish_tx (o : CmdOutcome) (s : State) : (finish o s).tx = { s.tx with state := .txIdle } := by
  unfold finish; split <;> rfl
@[simp] theorem finish_cmdKind (o : CmdOutcome) (s : State) : (finish o s).cmdKind = s.cmdKind := by unfold finish; split <;> rfl
@[simp] theorem finish_io (o : CmdOutcome) (s : State) : (finish o s).io = s.io := by unfold finish; split <;> rfl
@[simp] theorem finish_outcome (o : CmdOutcome) (s : State) : (finish o s).res.outcome = o := by unfold finish; split <;> rfl
@[simp] theorem finish_done (o : CmdOutcome) (s : State) : (finish o s).res.done = true := by unfold finish; split <;> rfl

theorem finish_pktValid (o : CmdOutcome) (s : State) :
    (finish o s).res.pktValid = true ↔ s.cmdKind = .receivePacket ∧ o = .ok := by
  unfold finish; split <;> simp_all

theorem finish_delivers {o : CmdOutcome} {s : State} (h : s.cmdKind = .receivePacket ∧ o = .ok) :
    (finish o s).res.pkt = s.rx.pkt := by
  unfold finish; rw [if_pos h]

theorem finish_keeps_pkt {o : CmdOutcome} {s : State} (h : ¬ (s.cmdKind = .receivePacket ∧ o = .ok)) :
    (finish o s).res.pkt = s.res.pkt := by
  unfold finish; rw [if_neg h]

/-- Everything `finish` does to the registers, in the words of the claims. -/
theorem finish_finished (o : CmdOutcome) (s : State) : Finished o s (finish o s) := by
  refine ⟨by simp, by simp, ?_, ?_, by simp, by simp, by simp, by simp⟩
  · intro h; exact ⟨finish_delivers h, (finish_pktValid o s).2 h⟩
  · intro h; exact ⟨finish_keeps_pkt h, by simpa using mt (finish_pktValid o s).1 h⟩

/-! ### The failed attempt -/

/-- A failed attempt ends the command or leads to the next attempt. -/
theorem attemptFailed_cases (s : State) :
    (s.tx.attempt = s.config.maxSendAttempts ∧ attemptFailed s = finish .sendFailed s) ∨
    (s.tx.attempt ≠ s.config.maxSendAttempts ∧ attemptFailed s = { s with tx := { s.tx with state := .drain } }) := by
  unfold attemptFailed
  split
  · exact .inl ⟨‹_›, rfl⟩
  · exact .inr ⟨‹_›, rfl⟩

@[simp] theorem attemptFailed_config (s : State) : (attemptFailed s).config = s.config := by
  unfold attemptFailed; split <;> simp
@[simp] theorem attemptFailed_cmdKind (s : State) : (attemptFailed s).cmdKind = s.cmdKind := by
  unfold attemptFailed; split <;> simp
@[simp] theorem attemptFailed_io (s : State) : (attemptFailed s).io = s.io := by unfold attemptFailed; split <;> simp

/-- Everything a failed attempt does to the registers, in the words of the claims. -/
theorem attemptFailed_spec (s : State) : AttemptFailed s (attemptFailed s) := by
  refine ⟨fun h => ?_, fun h => ?_⟩
  · unfold attemptFailed; rw [if_pos h]; exact finish_finished .sendFailed s
  · unfold attemptFailed; rw [if_neg h]; exact ⟨rfl, rfl, rfl, rfl, rfl⟩

/-! ### Acceptance and the reset step -/

@[simp] theorem accept_config (k : Command) (s : State) : (accept k s).config = s.config := rfl
@[simp] theorem accept_rx (k : Command) (s : State) : (accept k s).rx = s.rx := rfl
@[simp] theorem accept_tx (k : Command) (s : State) : (accept k s).tx = s.tx := rfl
@[simp] theorem accept_res (k : Command) (s : State) :
    (accept k s).res = { s.res with done := false, pktValid := false } := rfl
@[simp] theorem accept_cmdKind (k : Command) (s : State) : (accept k s).cmdKind = k := rfl
@[simp] theorem accept_io (k : Command) (s : State) : (accept k s).io = s.quiet.io := rfl

@[simp] theorem freeBytes_length (draw buffer n : Nat) : (freeBytes draw buffer n).length = n := by simp [freeBytes]

/-! ### `rx_buf` -/

/-- A store into `rx_buf` that takes place keeps the buffer's size. -/
theorem State.storeBody_length {b : Byte} {s : State} {buf : List Byte} (h : s.storeBody b = some buf) :
    buf.length = s.rx.buf.length := by
  unfold State.storeBody at h
  split at h
  · cases h; simp
  · cases h

/-- Read after write in `rx_buf`: the element written, and every other one. -/
theorem State.storeBody_get {b : Byte} {s : State} {buf : List Byte} (h : s.storeBody b = some buf) (i : Nat) :
    buf[i]? = if i = s.rx.idx then some b else s.rx.buf[i]? := by
  unfold State.storeBody at h
  split at h
  · rename_i hlt
    cases h
    by_cases hi : i = s.rx.idx
    · subst hi; simp [hlt]
    · simp [hi, List.getElem?_set_ne (Ne.symm hi)]
  · cases h

theorem State.storeBody_eq_some {b : Byte} {s : State} (h : s.rx.idx < s.rx.buf.length) :
    s.storeBody b = some (s.rx.buf.set s.rx.idx b) := by
  simp [State.storeBody, h]

theorem State.rxBody_eq_some {s : State} (h : s.rx.len.toNat ≤ s.rx.buf.length) :
    s.rxBody = some (s.rx.buf.take s.rx.len.toNat) := by
  simp [State.rxBody, h]

/-! ### The verdict -/

/-- The verdict is Ok exactly when 8 bytes were recovered and the checksums agree (43_crc_validator.md R174). -/
theorem verdictOf_eq_ok {v : Fin 9} {c e : Word16} : verdictOf v c e = .ok ↔ v.val = 8 ∧ c = e := by
  unfold verdictOf packetSize
  by_cases h : v.val = 8 ∧ c = e <;> simp [h]

/-! ### The frame and the Packet -/

@[simp] theorem State.frame_length (s : State) : s.frame.length = s.tx.encLen.val + 3 := by
  have := s.tx.encLen.isLt
  simp [State.frame]
  omega

/-- The first six bytes of a Packet that was built from them. -/
@[simp] theorem packetHead_packetOf (head : Vector Byte 6) (c : Word16) : packetHead (packetOf head c) = head.toList := by
  obtain ⟨⟨l⟩, h⟩ := head
  match l, h with
  | [a, b, c, d, e, f], _ => rfl

/-- The checksum a Packet was built with is the one it carries (30_encoding.md R82). -/
@[simp] theorem embeddedChecksum_packetOf (head : Vector Byte 6) (c : Word16) :
    embeddedChecksum (packetOf head c) = c := by
  have h : ((c.extractLsb' 0 8).zeroExtend 16 ||| ((c.extractLsb' 8 8).zeroExtend 16 <<< 8)) = c := by
    apply BitVec.eq_of_getLsbD_eq
    intro i hi
    by_cases h8 : i < 8
    · simp [h8, BitVec.getLsbD_extractLsb', hi]
    · have : i - 8 < 8 := by omega
      have h2 : 8 + (i - 8) = i := by omega
      simp [h8, BitVec.getLsbD_extractLsb', hi, this, h2]
  simpa [embeddedChecksum, packetOf] using h

/-- The encoder's write below the encoded length is the encoding. -/
theorem writeEnc_take (old enc : Vector Byte 10) (len : Fin 11) :
    (writeEnc old enc len).toList.take len.val = enc.toList.take len.val := by
  apply List.ext_getElem?
  intro i
  by_cases h : i < len.val
  · have h10 : i < 10 := by omega
    simp [h, writeEnc, h10]
  · simp [h]

end Sys2Proof.Machine
end

