-- ==== Sys2Proof/Laws/Step.lean ====
section
/-! SUPPORT. What the next step decodes, by the state registers and the port sample; and what a step can do, said once. -/

namespace Sys2Proof.Machine

open Sys2Proof

variable {s t : State}

@[simp] theorem fetch_abort : s.fetch.cond.abort = s.ports.abort := rfl
@[simp] theorem fetch_noByte : s.fetch.cond.noByte = decide (s.tryRecv = none) := rfl
@[simp] theorem fetch_operands : s.fetch.cond.operands = s.ports.operands := rfl
@[simp] theorem fetch_word : s.fetch.word = s.fetchWord := rfl

/-! ### The word each situation selects -/

/-- A sampling receiver state under an abort (60_exceptions.md R248). -/
theorem decode_fetch_rxAbort (hs : s.rx.state.samplesAbort = true) (ha : s.ports.abort = true) :
    decode s.config s.fetch = .ok (.rxAbort s.rx.state) := by
  have hw : s.fetchWord = .rxStep s.rx.state.code := by
    have : s.rx.state ≠ .rxIdle := by intro h; simp [h, RxState.samplesAbort] at hs
    simp only [State.fetchWord, if_pos this, rxWord, ha]
    cases s.tryRecv <;> simp
  cases hst : s.rx.state <;>
    simp_all [decode, classifyRxStep, RxState.samplesAbort]

/-- A polling receiver state without byte (41_receiver_framer.md R130). -/
theorem decode_fetch_rxEmptyPoll (hs : s.rx.state.pollsByte = true) (ha : s.ports.abort = false) (hr : s.tryRecv = none) :
    decode s.config s.fetch = .ok (.rxEmptyPoll s.rx.state) := by
  have hw : s.fetchWord = .rxStep s.rx.state.code := by
    have : s.rx.state ≠ .rxIdle := by intro h; simp [h, RxState.pollsByte] at hs
    simp only [State.fetchWord, if_pos this, rxWord, hr]
  cases hst : s.rx.state <;>
    simp_all [decode, classifyRxStep, RxState.pollsByte]

/-- A polling receiver state with a byte: the byte is classified (30_encoding.md R98). -/
theorem decode_fetch_rxByte {b : Byte} (hs : s.rx.state.pollsByte = true) (ha : s.ports.abort = false)
    (hr : s.tryRecv = some b) : decode s.config s.fetch = classifyRx s.config s.rx.state b := by
  have hw : s.fetchWord = .rxByte (s.rx.state.code ++ b) := by
    have : s.rx.state ≠ .rxIdle := by intro h; simp [h, RxState.pollsByte] at hs
    simp only [State.fetchWord, if_pos this, rxWord, hr, hs, ha]
    simp
  simp [decode, hw]

/-- Validate neither samples the abort nor takes a byte (43_crc_validator.md R171). -/
theorem decode_fetch_validate (hs : s.rx.state = .validate) : decode s.config s.fetch = .ok .validate := by
  have hw : s.fetchWord = .rxStep s.rx.state.code := by
    simp only [State.fetchWord, hs, rxWord]
    cases s.tryRecv <;> simp [RxState.pollsByte]
  simp [decode, hw, hs, classifyRxStep]

/-- Acknowledge without an abort (45_ack_handshake.md R210). -/
theorem decode_fetch_acknowledge (hs : s.rx.state = .acknowledge) (ha : s.ports.abort = false) :
    decode s.config s.fetch = .ok .acknowledge := by
  have hw : s.fetchWord = .rxStep s.rx.state.code := by
    simp only [State.fetchWord, hs, rxWord]
    cases s.tryRecv <;> simp [RxState.pollsByte]
  simp [decode, hw, hs, classifyRxStep, ha]

theorem fetchWord_tx (hr : s.rx.state = .rxIdle) (ht : s.tx.state ≠ .txIdle) :
    s.fetchWord = txWord s.tx.state s.ports.abort s.tryRecv := by
  simp [State.fetchWord, hr, ht]

/-- Drain (44_sender_framer.md R195). -/
theorem decode_fetch_drain (hr : s.rx.state = .rxIdle) (ht : s.tx.state = .drain) :
    decode s.config s.fetch = .ok .drain := by
  have hw : s.fetchWord = .txStep s.tx.state.code := by
    rw [fetchWord_tx hr (by simp [ht]), ht]
    cases s.tryRecv <;> simp [txWord]
  simp [decode, hw, ht, classifyTxStep]

/-- SendFrame (44_sender_framer.md R197). -/
theorem decode_fetch_sendFrame (hr : s.rx.state = .rxIdle) (ht : s.tx.state = .sendFrame) :
    decode s.config s.fetch = .ok .sendFrame := by
  have hw : s.fetchWord = .txStep s.tx.state.code := by
    rw [fetchWord_tx hr (by simp [ht]), ht]
    cases s.tryRecv <;> simp [txWord]
  simp [decode, hw, ht, classifyTxStep]

/-- WaitAck under an abort (60_exceptions.md R249). -/
theorem decode_fetch_txAbort (hr : s.rx.state = .rxIdle) (ht : s.tx.state = .waitAck) (ha : s.ports.abort = true) :
    decode s.config s.fetch = .ok .txAbort := by
  have hw : s.fetchWord = .txStep s.tx.state.code := by
    rw [fetchWord_tx hr (by simp [ht]), ht, ha]
    cases s.tryRecv <;> simp [txWord]
  simp [decode, hw, ht, ha, classifyTxStep]

/-- WaitAck without byte (45_ack_handshake.md R218). -/
theorem decode_fetch_waitAckEmptyPoll (hr : s.rx.state = .rxIdle) (ht : s.tx.state = .waitAck) (ha : s.ports.abort = false)
    (hn : s.tryRecv = none) : decode s.config s.fetch = .ok .waitAckEmptyPoll := by
  have hw : s.fetchWord = .txStep s.tx.state.code := by
    rw [fetchWord_tx hr (by simp [ht]), hn]
    simp [txWord]
  simp [decode, hw, ht, ha, hn, classifyTxStep]

/-- WaitAck with a byte: the byte is classified (30_encoding.md R99). -/
theorem decode_fetch_txByte {b : Byte} (hr : s.rx.state = .rxIdle) (ht : s.tx.state = .waitAck) (ha : s.ports.abort = false)
    (hb : s.tryRecv = some b) :
    decode s.config s.fetch = .ok (if b = s.config.ackOk then .ackOk else .ackNotOk b) := by
  have hw : s.fetchWord = .txByte (s.tx.state.code ++ b) := by
    rw [fetchWord_tx hr (by simp [ht]), hb, ha]
    simp [txWord, ht]
  simp [decode, hw, ht, classifyTx]

/-- Both machines idle: the command port is read (40_commands.md R111). -/
theorem decode_fetch_idle (hr : s.rx.state = .rxIdle) (ht : s.tx.state = .txIdle) :
    decode s.config s.fetch = .ok (decodeCmd s.ports.cmd s.ports.operands) := by
  simp [decode, State.fetchWord, hr, ht]

/-! ### What can be selected -/

/-- Which instruction the state registers and the port sample of `s` select, case by case (40_commands.md R110, R119). -/
inductive Selects (s : State) : Instr → Prop where
  | rxAbort : s.rx.state.samplesAbort = true → s.ports.abort = true → Selects s (.rxAbort s.rx.state)
  | rxEmptyPoll : s.rx.state.pollsByte = true → s.ports.abort = false → s.tryRecv = none →
      Selects s (.rxEmptyPoll s.rx.state)
  | seekSentinel : s.rx.state = .seekSentinel → s.ports.abort = false → s.tryRecv = some sentinel → Selects s .seekSentinel
  | seekOther (b : Byte) : s.rx.state = .seekSentinel → s.ports.abort = false → s.tryRecv = some b → b ≠ sentinel →
      Selects s (.seekOther b)
  | lenSentinel : s.rx.state = .readLength → s.ports.abort = false → s.tryRecv = some sentinel → Selects s .lenSentinel
  | lenAccept (b : Byte) : s.rx.state = .readLength → s.ports.abort = false → s.tryRecv = some b → b ≠ sentinel →
      b.toNat ≤ s.config.maxBodyLen → Selects s (.lenAccept b)
  | lenOversize (b : Byte) : s.rx.state = .readLength → s.ports.abort = false → s.tryRecv = some b → b ≠ sentinel →
      s.config.maxBodyLen < b.toNat → Selects s (.lenOversize b)
  | bodySentinel : s.rx.state = .readBody → s.ports.abort = false → s.tryRecv = some sentinel → Selects s .bodySentinel
  | bodyData (b : Byte) : s.rx.state = .readBody → s.ports.abort = false → s.tryRecv = some b → b ≠ sentinel →
      Selects s (.bodyData b)
  | validate : s.rx.state = .validate → Selects s .validate
  | acknowledge : s.rx.state = .acknowledge → s.ports.abort = false → Selects s .acknowledge
  | drain : s.rx.state = .rxIdle → s.tx.state = .drain → Selects s .drain
  | sendFrame : s.rx.state = .rxIdle → s.tx.state = .sendFrame → Selects s .sendFrame
  | txAbort : s.rx.state = .rxIdle → s.tx.state = .waitAck → s.ports.abort = true → Selects s .txAbort
  | waitAckEmptyPoll : s.rx.state = .rxIdle → s.tx.state = .waitAck → s.ports.abort = false → s.tryRecv = none →
      Selects s .waitAckEmptyPoll
  | ackOk : s.rx.state = .rxIdle → s.tx.state = .waitAck → s.ports.abort = false → s.tryRecv = some s.config.ackOk →
      Selects s .ackOk
  | ackNotOk (b : Byte) : s.rx.state = .rxIdle → s.tx.state = .waitAck → s.ports.abort = false → s.tryRecv = some b →
      b ≠ s.config.ackOk → Selects s (.ackNotOk b)
  | nop : s.rx.state = .rxIdle → s.tx.state = .txIdle → s.ports.cmd = 0 → Selects s .nop
  | receivePacket : s.rx.state = .rxIdle → s.tx.state = .txIdle → s.ports.cmd = 1 → Selects s .receivePacket
  | sendPacket : s.rx.state = .rxIdle → s.tx.state = .txIdle → s.ports.cmd = 2 →
      Selects s (.sendPacket s.ports.operands.dest s.ports.operands.msgType s.ports.operands.payload)
  | sendPacketSingleByte : s.rx.state = .rxIdle → s.tx.state = .txIdle → s.ports.cmd = 3 →
      Selects s (.sendPacketSingleByte s.ports.operands.msgType s.ports.operands.value)

/-- A byte in a polling state selects one of its classes. -/
theorem selects_of_byte {b : Byte} (hs : s.rx.state.pollsByte = true) (ha : s.ports.abort = false)
    (hr : s.tryRecv = some b) : ∃ i, classifyRx s.config s.rx.state b = .ok i ∧ Selects s i := by
  cases hst : s.rx.state with
  | seekSentinel =>
    by_cases hb : b = sentinel
    · exact ⟨.seekSentinel, by simp [classifyRx, hb], .seekSentinel hst ha (hb ▸ hr)⟩
    · exact ⟨.seekOther b, by simp [classifyRx, hb], .seekOther b hst ha hr hb⟩
  | readLength =>
    by_cases hb : b = sentinel
    · exact ⟨.lenSentinel, by simp [classifyRx, hb], .lenSentinel hst ha (hb ▸ hr)⟩
    · by_cases hm : b.toNat ≤ s.config.maxBodyLen
      · exact ⟨.lenAccept b, by simp [classifyRx, hb, hm], .lenAccept b hst ha hr hb hm⟩
      · exact ⟨.lenOversize b, by simp [classifyRx, hb, hm], .lenOversize b hst ha hr hb (Nat.lt_of_not_le hm)⟩
  | readBody =>
    by_cases hb : b = sentinel
    · exact ⟨.bodySentinel, by simp [classifyRx, hb], .bodySentinel hst ha (hb ▸ hr)⟩
    · exact ⟨.bodyData b, by simp [classifyRx, hb], .bodyData b hst ha hr hb⟩
  | rxIdle | validate | acknowledge => simp [hst, RxState.pollsByte] at hs

/-- A state and a port sample always select an instruction, and the decoder reads it. -/
theorem fetch_selects (s : State) : ∃ i, decode s.config s.fetch = .ok i ∧ Selects s i := by
  have polling : s.rx.state.pollsByte = true → ∃ i, decode s.config s.fetch = .ok i ∧ Selects s i := by
    intro hp
    have hs : s.rx.state.samplesAbort = true := by revert hp; cases s.rx.state <;> simp [RxState.pollsByte, RxState.samplesAbort]
    cases ha : s.ports.abort with
    | true => exact ⟨_, decode_fetch_rxAbort hs ha, .rxAbort hs ha⟩
    | false =>
      cases hr : s.tryRecv with
      | none => exact ⟨_, decode_fetch_rxEmptyPoll hp ha hr, .rxEmptyPoll hp ha hr⟩
      | some b =>
        obtain ⟨i, hi, hsel⟩ := selects_of_byte hp ha hr
        exact ⟨i, (decode_fetch_rxByte hp ha hr).trans hi, hsel⟩
  cases hst : s.rx.state with
  | seekSentinel | readLength | readBody => exact polling (by simp [hst, RxState.pollsByte])
  | validate => exact ⟨_, decode_fetch_validate hst, .validate hst⟩
  | acknowledge =>
    cases ha : s.ports.abort with
    | true =>
      have hs : s.rx.state.samplesAbort = true := by simp [hst, RxState.samplesAbort]
      exact ⟨_, decode_fetch_rxAbort hs ha, .rxAbort hs ha⟩
    | false => exact ⟨_, decode_fetch_acknowledge hst ha, .acknowledge hst ha⟩
  | rxIdle =>
    cases htx : s.tx.state with
    | drain => exact ⟨_, decode_fetch_drain hst htx, .drain hst htx⟩
    | sendFrame => exact ⟨_, decode_fetch_sendFrame hst htx, .sendFrame hst htx⟩
    | waitAck =>
      cases ha : s.ports.abort with
      | true => exact ⟨_, decode_fetch_txAbort hst htx ha, .txAbort hst htx ha⟩
      | false =>
        cases hr : s.tryRecv with
        | none => exact ⟨_, decode_fetch_waitAckEmptyPoll hst htx ha hr, .waitAckEmptyPoll hst htx ha hr⟩
        | some b =>
          have hd := decode_fetch_txByte hst htx ha hr
          by_cases hb : b = s.config.ackOk
          · exact ⟨.ackOk, by rw [hd, if_pos hb], .ackOk hst htx ha (hb ▸ hr)⟩
          · exact ⟨.ackNotOk b, by rw [hd, if_neg hb], .ackNotOk b hst htx ha hr hb⟩
    | txIdle =>
      have hd := decode_fetch_idle hst htx
      have hc : s.ports.cmd = 0 ∨ s.ports.cmd = 1 ∨ s.ports.cmd = 2 ∨ s.ports.cmd = 3 := by
        generalize s.ports.cmd = c; revert c; decide
      rcases hc with h | h | h | h
      · exact ⟨.nop, by rw [hd, h]; rfl, .nop hst htx h⟩
      · exact ⟨.receivePacket, by rw [hd, h]; rfl, .receivePacket hst htx h⟩
      · exact ⟨_, by rw [hd, h]; rfl, .sendPacket hst htx h⟩
      · exact ⟨_, by rw [hd, h]; rfl, .sendPacketSingleByte hst htx h⟩

/-- What is decoded is what is selected. -/
theorem selects_of_decode {i : Instr} (h : decode s.config s.fetch = .ok i) : Selects s i := by
  obtain ⟨j, hj, hs⟩ := fetch_selects s
  rw [h] at hj
  cases hj
  exact hs

/-! ### What a step can do -/

/-- A step without reset runs the decoded instruction. -/
theorem step_of_decode {i : Instr} (hr : s.ports.rst = false) (h : decode s.config s.fetch = .ok i) :
    step s = advanceOutcome (exec i s) := by
  simp [step, hr, h]

/-- A step under reset is the reset step. -/
theorem step_of_rst (hr : s.ports.rst = true) : step s = .next (resetStep s).advance := by simp [step, hr]

/-- A step that answers a next state was the reset step, or ran the one selected instruction. -/
theorem step_cases (h : step s = .next t) :
    (s.ports.rst = true ∧ t = (resetStep s).advance) ∨
    (s.ports.rst = false ∧ ∃ i u, Selects s i ∧ exec i s = .next u ∧ t = u.advance) := by
  cases hr : s.ports.rst with
  | true => rw [step_of_rst hr] at h; cases h; exact .inl ⟨rfl, rfl⟩
  | false =>
    obtain ⟨i, hd, hs⟩ := fetch_selects s
    rw [step_of_decode hr hd] at h
    refine .inr ⟨rfl, i, ?_⟩
    cases he : exec i s with
    | next u => rw [he] at h; cases h; exact ⟨u, hs, rfl, rfl⟩
    | fault r => rw [he] at h; cases h
    | refused r => rw [he] at h; cases h

/-- A step whose selected instruction answers a next state answers that state, advanced. -/
theorem step_next {i : Instr} {u : State} (hr : s.ports.rst = false) (h : decode s.config s.fetch = .ok i)
    (he : exec i s = .next u) : step s = .next u.advance := by
  rw [step_of_decode hr h, he]; rfl

/-! ### The meanings that can stop -/

/-- BODY.DATA that answers a next state stored its byte. -/
theorem execBodyData_next {b : Byte} (h : execBodyData b s = .next t) :
    s.rx.idx < s.rx.buf.length ∧
    t = { s.took b with
      rx := {
        s.rx with
        buf := s.rx.buf.set s.rx.idx b, idx := s.rx.idx + 1
        state := if s.rx.idx + 1 = s.rx.len.toNat then .validate else s.rx.state } } := by
  by_cases hlt : s.rx.idx < s.rx.buf.length
  · simp only [execBodyData, State.storeBody_eq_some hlt] at h
    cases h
    exact ⟨hlt, rfl⟩
  · simp [execBodyData, State.storeBody, hlt] at h

/-- VALIDATE that answers a next state decoded the stored body. -/
theorem execValidate_next (h : execValidate s = .next t) :
    s.rx.len.toNat ≤ s.rx.buf.length ∧
    t = { s.quiet with
      rx := {
        s.rx with
        pkt := (s.config.codec.decode (s.rx.buf.take s.rx.len.toNat)).1
        vlen := (s.config.codec.decode (s.rx.buf.take s.rx.len.toNat)).2
        crc := packetChecksum s.config (s.config.codec.decode (s.rx.buf.take s.rx.len.toNat)).1
        verdict := verdictOf (s.config.codec.decode (s.rx.buf.take s.rx.len.toNat)).2
          (packetChecksum s.config (s.config.codec.decode (s.rx.buf.take s.rx.len.toNat)).1)
          (embeddedChecksum (s.config.codec.decode (s.rx.buf.take s.rx.len.toNat)).1)
        state := .acknowledge } } := by
  by_cases hle : s.rx.len.toNat ≤ s.rx.buf.length
  · simp only [execValidate, State.rxBody_eq_some hle] at h
    cases h
    exact ⟨hle, rfl⟩
  · simp [execValidate, State.rxBody, hle] at h

/-- SENDFRAME that answers a next state either offered its byte in vain or sent it. -/
theorem execSendFrame_next (h : execSendFrame s = .next t) :
    ∃ b, s.frame[s.tx.pos.toNat]? = some b ∧
      ((s.ports.txReady = false ∧ t = s.quiet) ∨ (s.ports.txReady = true ∧ t = frameByteSent b s)) := by
  unfold execSendFrame at h
  cases hb : s.frame[s.tx.pos.toNat]? with
  | none => simp [hb] at h
  | some b =>
    refine ⟨b, rfl, ?_⟩
    cases hr : s.ports.txReady <;> simp [hb, hr] at h
    · exact .inl ⟨rfl, h.symm⟩
    · exact .inr ⟨rfl, h.symm⟩

/-- The 4-bit position does not wrap before the end of a frame. -/
theorem pos_succ_toNat {p : BitVec 4} {n : Fin 11} (h : p.toNat < n.val + 3) : (p + 1).toNat = p.toNat + 1 := by
  have := n.isLt
  rw [BitVec.toNat_add, show (1 : BitVec 4).toNat = 1 from rfl]
  omega

/-- The incremented position ends the frame exactly when the position was the last one; no wrap in 4 bits makes it so. -/
theorem pos_succ_eq_iff (p : BitVec 4) (n : Fin 11) : (p + 1).toNat = n.val + 3 ↔ p.toNat + 1 = n.val + 3 := by
  have := n.isLt
  have := p.isLt
  rw [BitVec.toNat_add, show (1 : BitVec 4).toNat = 1 from rfl]
  omega

/-- An accepted frame byte: the last one leads to WaitAck, any other only moves the position on. -/
theorem frameByteSent_cases (b : Byte) (s : State) :
    (s.tx.pos.toNat + 1 = s.tx.encLen.val + 3 ∧
      frameByteSent b s = { s.pushed b with tx := { s.tx with pos := s.tx.pos + 1, wait := 0, state := .waitAck } }) ∨
    (s.tx.pos.toNat + 1 ≠ s.tx.encLen.val + 3 ∧
      frameByteSent b s = { s.pushed b with tx := { s.tx with pos := s.tx.pos + 1 } }) := by
  unfold frameByteSent
  split <;> rename_i h <;> rw [pos_succ_eq_iff] at h
  · exact .inl ⟨h, rfl⟩
  · exact .inr ⟨h, rfl⟩

/-- WAITACK.EMPTY_POLL without a bound only polls; with one it counts, and at the bound the attempt fails. -/
theorem execWaitAckEmptyPoll_next (h : execWaitAckEmptyPoll s = .next t) :
    (s.config.ackWaitPolls = none ∧ t = s.waitPolled) ∨
    (∃ n, s.config.ackWaitPolls = some n ∧ s.tx.wait + 1 = n ∧
      t = attemptFailed { s.waitPolled with tx := { s.tx with wait := s.tx.wait + 1 } }) ∨
    (∃ n, s.config.ackWaitPolls = some n ∧ s.tx.wait + 1 ≠ n ∧
      t = { s.waitPolled with tx := { s.tx with wait := s.tx.wait + 1 } }) := by
  unfold execWaitAckEmptyPoll at h
  split at h
  · cases h; simp_all
  · split at h <;> cases h <;> simp_all

/-! ### Runs -/

theorem run_zero (s : State) : Sys2Proof.core.run 0 s = .next s := rfl

/-- A run whose first step answers `t` goes on from `t`. -/
theorem run_succ {k : Nat} (h : step s = .next t) : Sys2Proof.core.run (k + 1) s = Sys2Proof.core.run k t := by
  have h' : Sys2Proof.core.step s = .next t := h
  show Host.Core.run Sys2Proof.core (k + 1) s = _
  simp only [Host.Core.run, h']

/-- A run goes on from where its first `j` steps lead. -/
theorem run_add {j : Nat} (k : Nat) (h : Sys2Proof.core.run j s = .next t) :
    Sys2Proof.core.run (j + k) s = Sys2Proof.core.run k t := by
  induction j generalizing s with
  | zero => rw [run_zero] at h; cases h; simp
  | succ j ih =>
    cases hs : step s with
    | next u => rw [Nat.add_right_comm, run_succ hs]; rw [run_succ hs] at h; exact ih h
    | fault r =>
      have h' : Sys2Proof.core.step s = .fault r := hs
      simp only [Host.Core.run, h'] at h; cases h
    | refused r =>
      have h' : Sys2Proof.core.step s = .refused r := hs
      simp only [Host.Core.run, h'] at h; cases h

end Sys2Proof.Machine
end

