-- ==== Sys2Proof/Laws/Inputs.lean ====
section
/-! SUPPORT. What a step reads of its port sample: an instruction reads only the answers of `TryRecv` and `TrySend`; the rest of
the sample decides which instruction it is. -/

namespace Sys2Proof.Machine

open Sys2Proof

/-- `s` with another list of port samples. -/
def withInputs (l : List Ports) (s : State) : State := { s with io := { s.io with inputs := l } }

/-- An outcome with its next state changed by `f`. -/
def mapNext (f : State → State) : Host.Outcome State Fault Refusal → Host.Outcome State Fault Refusal
  | .next t => .next (f t)
  | .fault r => .fault r
  | .refused r => .refused r

section
variable (l : List Ports) (s : State)

@[simp] theorem withInputs_config : (withInputs l s).config = s.config := rfl
@[simp] theorem withInputs_rx : (withInputs l s).rx = s.rx := rfl
@[simp] theorem withInputs_tx : (withInputs l s).tx = s.tx := rfl
@[simp] theorem withInputs_res : (withInputs l s).res = s.res := rfl
@[simp] theorem withInputs_cmdKind : (withInputs l s).cmdKind = s.cmdKind := rfl

theorem withInputs_finish (o : CmdOutcome) : withInputs l (finish o s) = finish o (withInputs l s) := by
  unfold finish withInputs; simp only; split <;> rfl

theorem withInputs_attemptFailed : withInputs l (attemptFailed s) = attemptFailed (withInputs l s) := by
  unfold attemptFailed
  rw [← withInputs_finish, withInputs_tx, withInputs_config]
  split <;> rfl

theorem withInputs_offerAck (a : Byte) (o : CmdOutcome) (h : s.ports.txReady = (withInputs l s).ports.txReady) :
    withInputs l (offerAck a o s) = offerAck a o (withInputs l s) := by
  unfold offerAck
  rw [← h]
  split
  · rw [withInputs_finish]; rfl
  · rfl

/-- An instruction does the same under two samples that answer `TryRecv` and `TrySend` alike. -/
theorem exec_withInputs (i : Instr) (h1 : s.tryRecv = (withInputs l s).tryRecv)
    (h2 : s.ports.txReady = (withInputs l s).ports.txReady) :
    exec i (withInputs l s) = mapNext (withInputs l) (exec i s) := by
  cases i <;> simp only [exec]
  case seekSentinel => unfold execSeekSentinel; rw [withInputs_rx]; split <;> rfl
  case bodyData b => unfold execBodyData; rw [show (withInputs l s).storeBody b = s.storeBody b from rfl]; split <;> rfl
  case validate => unfold execValidate; rw [show (withInputs l s).rxBody = s.rxBody from rfl]; split <;> rfl
  case acknowledge => simp only [execAcknowledge, mapNext, withInputs_offerAck _ _ _ _ h2]; rfl
  case ackoutOk => simp only [execAckoutOk, mapNext, withInputs_offerAck _ _ _ _ h2]; rfl
  case ackoutCrcFail => simp only [execAckoutCrcFail, mapNext, withInputs_offerAck _ _ _ _ h2]; rfl
  case drain => simp only [execDrain, mapNext, State.drained, ← h1]; cases s.tryRecv <;> rfl
  case sendFrame =>
    unfold execSendFrame
    rw [show (withInputs l s).frame = s.frame from rfl, ← h2, withInputs_tx]
    split
    · rfl
    · split
      · unfold frameByteSent; rw [withInputs_tx]; split <;> rfl
      · rfl
  case ackOk => simp only [execAckOk, mapNext, withInputs_finish]; rfl
  case ackNotOk => simp only [execAckNotOk, mapNext, withInputs_attemptFailed]; rfl
  case waitAckEmptyPoll =>
    have e : (withInputs l s).waitPolled = withInputs l s.waitPolled := by
      simp only [State.waitPolled]; rw [withInputs_config]; split <;> rfl
    unfold execWaitAckEmptyPoll
    rw [e, withInputs_tx, withInputs_config]
    split
    · rfl
    · split
      · simp only [mapNext, withInputs_attemptFailed]; rfl
      · rfl
  case rxAbort => simp only [execRxAbort, mapNext, withInputs_finish]; rfl
  case txAbort => simp only [execTxAbort, mapNext, withInputs_finish]; rfl
  case outOk => simp only [execOutOk, mapNext, withInputs_finish]; rfl
  case outReset => simp only [execOutReset, mapNext, withInputs_finish]; rfl
  case outChecksumFailed => simp only [execOutChecksumFailed, mapNext, withInputs_finish]; rfl
  case outSendFailed => simp only [execOutSendFailed, mapNext, withInputs_finish]; rfl
  all_goals rfl

end

/-- No instruction touches the list of port samples. -/
theorem exec_keeps_inputs {i : Instr} {s u : State} (he : exec i s = .next u) : u.io.inputs = s.io.inputs := by
  have h := exec_withInputs s.io.inputs s i rfl rfl
  rw [show withInputs s.io.inputs s = s from rfl, he] at h
  simp only [mapNext, Host.Outcome.next.injEq] at h
  rw [h]; rfl

/-- Two samples of one step that agree on reset, on the answers of the transport and on what they decode to lead to the same
outcome. -/
theorem step_eq_of_samples {s : State} {p : Ports} (q : Ports) {rest : List Ports} (hi : s.io.inputs = p :: rest)
    (hr : p.rst = q.rst)
    (h : p.rst = false → p.rxAvail = q.rxAvail ∧ p.rxData = q.rxData ∧ p.txReady = q.txReady ∧
      decode s.config s.fetch = decode s.config (withInputs (q :: rest) s).fetch) :
    step s = step (withInputs (q :: rest) s) := by
  have p1 : s.ports = p := State.ports_of_inputs hi
  have p2 : (withInputs (q :: rest) s).ports = q := State.ports_of_inputs rfl
  cases hq : q.rst with
  | true =>
    rw [step_of_rst (by rw [p1, hr, hq]), step_of_rst (by rw [p2, hq])]
    simp [resetStep, State.advance, hi, withInputs]
  | false =>
    rw [hq] at hr
    obtain ⟨ha, hd, ht, he⟩ := h hr
    have e1 : s.tryRecv = (withInputs (q :: rest) s).tryRecv := by simp [State.tryRecv, p1, p2, ha, hd]
    simp only [step, p1, p2, hr, hq, he, withInputs_config]
    cases decode s.config (withInputs (q :: rest) s).fetch with
    | ok i =>
      simp only
      rw [exec_withInputs _ s i e1 (by rw [p1, p2, ht])]
      cases hx : exec i s with
      | next u =>
        have := exec_keeps_inputs hx
        simp [mapNext, advanceOutcome, State.advance, withInputs, this, hi]
      | fault r => rfl
      | refused r => rfl
    | error e => rfl

end Sys2Proof.Machine
end

