-- ==== Sys2Proof/Laws/PerInstr.lean ====
section
/-! SUPPORT. The family RoundTrip, one lemma per instruction: under every configuration that allows its operands, decoding the
encoding of the instruction gives the instruction back. -/

namespace Sys2Proof.Laws.RoundTrip

open Sys2Proof

/-- Decoding what the encoder writes for `i` gives `i`, under every configuration for which `i` is well-formed. -/
def Statement (i : Instr) : Prop := ∀ cfg : Config, i.wf cfg = true → decode cfg (encode cfg i) = .ok i

theorem nop : Statement .nop := fun _ _ => rfl

theorem receivePacket : Statement .receivePacket := fun _ _ => rfl

theorem sendPacket (dest msgType : Byte) (payload : Vector Byte 4) : Statement (.sendPacket dest msgType payload) := fun _ _ => rfl

theorem sendPacketSingleByte (msgType value : Byte) : Statement (.sendPacketSingleByte msgType value) := fun _ _ => rfl

theorem seekSentinel : Statement .seekSentinel := by
  intro cfg _
  simp [decode, encode, classifyRx]

theorem seekOther (b : Byte) : Statement (.seekOther b) := by
  intro cfg h
  simp [Instr.wf] at h
  simp [decode, encode, classifyRx, h]

theorem lenSentinel : Statement .lenSentinel := by
  intro cfg _
  simp [decode, encode, classifyRx]

theorem lenAccept (b : Byte) : Statement (.lenAccept b) := by
  intro cfg h
  simp [Instr.wf] at h
  simp [decode, encode, classifyRx, h]

theorem lenOversize (b : Byte) : Statement (.lenOversize b) := by
  intro cfg h
  simp [Instr.wf] at h
  simp [decode, encode, classifyRx, h, Nat.not_le.2 h.2]

theorem bodySentinel : Statement .bodySentinel := by
  intro cfg _
  simp [decode, encode, classifyRx]

theorem bodyData (b : Byte) : Statement (.bodyData b) := by
  intro cfg h
  simp [Instr.wf] at h
  simp [decode, encode, classifyRx, h]

theorem rxAbort (st : RxState) : Statement (.rxAbort st) := by
  intro cfg h
  cases st <;>
    simp_all [Instr.wf, RxState.samplesAbort, decode, encode, classifyRxStep, Conditions.aborted,
      Conditions.byteAtHand]

theorem rxEmptyPoll (st : RxState) : Statement (.rxEmptyPoll st) := by
  intro cfg h
  cases st <;>
    simp_all [Instr.wf, RxState.pollsByte, decode, encode, classifyRxStep, Conditions.emptyPoll, Conditions.byteAtHand]

theorem validate : Statement .validate := by
  intro cfg _
  simp [decode, encode, classifyRxStep, Conditions.emptyPoll, Conditions.byteAtHand]

theorem acknowledge : Statement .acknowledge := by
  intro cfg _
  simp [decode, encode, classifyRxStep, Conditions.emptyPoll, Conditions.byteAtHand]

theorem drain : Statement .drain := by
  intro cfg _
  simp [decode, encode, classifyTxStep, Conditions.emptyPoll, Conditions.byteAtHand]

theorem sendFrame : Statement .sendFrame := by
  intro cfg _
  simp [decode, encode, classifyTxStep, Conditions.emptyPoll, Conditions.byteAtHand]

theorem txAbort : Statement .txAbort := by
  intro cfg _
  simp [decode, encode, classifyTxStep, Conditions.aborted, Conditions.byteAtHand]

theorem waitAckEmptyPoll : Statement .waitAckEmptyPoll := by
  intro cfg _
  simp [decode, encode, classifyTxStep, Conditions.emptyPoll, Conditions.byteAtHand]

theorem ackOk : Statement .ackOk := by
  intro cfg _
  simp [decode, encode, classifyTx]

theorem ackNotOk (b : Byte) : Statement (.ackNotOk b) := by
  intro cfg h
  simp [Instr.wf] at h
  simp [decode, encode, classifyTx, h]

theorem ackoutOk : Statement .ackoutOk := by
  intro cfg _
  simp [decode, encode, decodeAckOut, Conditions.emptyPoll, Conditions.byteAtHand]

theorem ackoutCrcFail : Statement .ackoutCrcFail := by
  intro cfg _
  simp [decode, encode, decodeAckOut, Conditions.emptyPoll, Conditions.byteAtHand]

theorem outOk : Statement .outOk := fun _ _ => rfl

theorem outReset : Statement .outReset := fun _ _ => rfl

theorem outChecksumFailed : Statement .outChecksumFailed := fun _ _ => rfl

theorem outSendFailed : Statement .outSendFailed := fun _ _ => rfl

end Sys2Proof.Laws.RoundTrip
end

