-- ==== Sys2Proof/Tests/Slice0.lean ====
section
/-! SUPPORT. The model's own tests: the well-formedness smoke test, words written out from the spec's encodings, the vectors of
95_test_vectors.md for the CRC, the codec and single steps, and a witness for the hypotheses of every statement that has
hypotheses. -/

namespace Sys2Proof.Tests

open Sys2Proof Sys2Proof.Machine

/-! ### Well-formedness: one ill-formed term for each check -/

theorem test_wf_refuses_a_sentinel_as_other_byte : Instr.wf Config.reference (.seekOther 0xFF) = false := by decide
theorem test_wf_refuses_a_sentinel_as_length : Instr.wf { Config.reference with maxBodyLen := 255 } (.lenAccept 0xFF) = false := by
  decide
theorem test_wf_refuses_a_length_above_the_bound : Instr.wf Config.reference (.lenAccept 17) = false := by decide
theorem test_wf_refuses_a_sentinel_as_oversize : Instr.wf Config.reference (.lenOversize 0xFF) = false := by decide
theorem test_wf_refuses_an_oversize_within_the_bound : Instr.wf Config.reference (.lenOversize 16) = false := by decide
theorem test_wf_refuses_a_sentinel_as_body : Instr.wf Config.reference (.bodyData 0xFF) = false := by decide
theorem test_wf_refuses_abort_in_validate : Instr.wf Config.reference (.rxAbort .validate) = false := by decide
theorem test_wf_refuses_empty_poll_in_acknowledge : Instr.wf Config.reference (.rxEmptyPoll .acknowledge) = false := by decide
theorem test_wf_refuses_the_ok_code_as_not_ok : Instr.wf Config.reference (.ackNotOk 0x00) = false := by decide
theorem test_wf_accepts_the_boundary_operands :
    Instr.wf Config.reference (.lenAccept 16) = true ∧ Instr.wf Config.reference (.lenOversize 17) = true ∧
    Instr.wf Config.reference (.lenOversize 254) = true ∧ Instr.wf Config.reference (.rxAbort .acknowledge) = true := by decide

theorem test_config_refuses_a_buffer_below_the_codec : Config.wf { Config.reference with maxBodyLen := 9 } = false := by decide
theorem test_config_refuses_a_buffer_above_254 : Config.wf { Config.reference with maxBodyLen := 255 } = false := by decide
theorem test_config_refuses_no_attempts : Config.wf { Config.reference with maxSendAttempts := 0 } = false := by decide
theorem test_config_refuses_equal_codes : Config.wf { Config.reference with ackCrcFail := 0x00 } = false := by decide
theorem test_config_refuses_no_polls : Config.wf { Config.reference with ackWaitPolls := some 0 } = false := by decide
theorem test_config_accepts :
    Config.wf Config.reference = true ∧ Config.wf { Config.reference with maxBodyLen := 10, ackWaitPolls := none } = true ∧
    Config.wf { Config.reference with maxBodyLen := 254, ackWaitPolls := some 1, maxSendAttempts := 1 } = true := by decide

/-! ### Decoding: words written out bit by bit (30_encoding.md R96 to R99, R107; 10_state.md R24, R33) -/

/-- No abort, a byte at hand. -/
def atHand : Conditions := Conditions.byteAtHand
/-- No abort, no byte. -/
def noByte : Conditions := Conditions.emptyPoll
/-- An abort, with a byte at hand. -/
def aborted : Conditions := Conditions.aborted
/-- The operands of the source's example command (95_test_vectors.md P1), with a value operand. -/
def operands : CmdOperands := { dest := 0x01, msgType := 0x05, payload := #v[0x10, 0x00, 0x00, 0x00], value := 0x2A }
/-- The reference decoder. -/
def dec (w : OpWord) (c : Conditions) : Option Instr :=
  match decode Config.reference ⟨w, c⟩ with
  | .ok i => some i
  | .error _ => none
/-- Why the reference decoder rejects a word. -/
def decError (w : OpWord) (c : Conditions) : Option DecodeError :=
  match decode Config.reference ⟨w, c⟩ with
  | .ok _ => none
  | .error e => some e

theorem test_decode_nop : dec (.cmd 0b00) noByte = some .nop := by decide
theorem test_decode_receivePacket : dec (.cmd 0b01) noByte = some .receivePacket := by decide
theorem test_decode_sendPacket :
    dec (.cmd 0b10) { noByte with operands := operands } = some (.sendPacket 0x01 0x05 #v[0x10, 0x00, 0x00, 0x00]) := by decide
theorem test_decode_sendPacketSingleByte :
    dec (.cmd 0b11) { noByte with operands := operands } = some (.sendPacketSingleByte 0x05 0x2A) := by decide
theorem test_decode_seekSentinel : dec (.rxByte 0b001_11111111) atHand = some .seekSentinel := by decide
theorem test_decode_seekOther : dec (.rxByte 0b001_00010010) atHand = some (.seekOther 0x12) := by decide
theorem test_decode_lenSentinel : dec (.rxByte 0b010_11111111) atHand = some .lenSentinel := by decide
theorem test_decode_lenAccept : dec (.rxByte 0b010_00001010) atHand = some (.lenAccept 0x0A) := by decide
theorem test_decode_lenAccept_bound : dec (.rxByte 0b010_00010000) atHand = some (.lenAccept 0x10) := by decide
theorem test_decode_lenOversize : dec (.rxByte 0b010_00010001) atHand = some (.lenOversize 0x11) := by decide
theorem test_decode_lenOversize_254 : dec (.rxByte 0b010_11111110) atHand = some (.lenOversize 0xFE) := by decide
theorem test_decode_bodySentinel : dec (.rxByte 0b011_11111111) atHand = some .bodySentinel := by decide
theorem test_decode_bodyData : dec (.rxByte 0b011_01000001) atHand = some (.bodyData 0x41) := by decide
theorem test_decode_rxAbort :
    dec (.rxStep 0b001) aborted = some (.rxAbort .seekSentinel) ∧ dec (.rxStep 0b010) aborted = some (.rxAbort .readLength) ∧
    dec (.rxStep 0b011) aborted = some (.rxAbort .readBody) ∧ dec (.rxStep 0b101) aborted = some (.rxAbort .acknowledge) := by decide
theorem test_decode_rxEmptyPoll :
    dec (.rxStep 0b001) noByte = some (.rxEmptyPoll .seekSentinel) ∧ dec (.rxStep 0b010) noByte = some (.rxEmptyPoll .readLength) ∧
    dec (.rxStep 0b011) noByte = some (.rxEmptyPoll .readBody) := by decide
theorem test_decode_validate : dec (.rxStep 0b100) noByte = some .validate ∧ dec (.rxStep 0b100) aborted = some .validate := by decide
theorem test_decode_acknowledge : dec (.rxStep 0b101) noByte = some .acknowledge := by decide
theorem test_decode_drain : dec (.txStep 0b01) noByte = some .drain ∧ dec (.txStep 0b01) aborted = some .drain := by decide
theorem test_decode_sendFrame : dec (.txStep 0b10) noByte = some .sendFrame ∧ dec (.txStep 0b10) aborted = some .sendFrame := by decide
theorem test_decode_txAbort : dec (.txStep 0b11) aborted = some .txAbort := by decide
theorem test_decode_waitAckEmptyPoll : dec (.txStep 0b11) noByte = some .waitAckEmptyPoll := by decide
theorem test_decode_ackOk : dec (.txByte 0b11_00000000) atHand = some .ackOk := by decide
theorem test_decode_ackNotOk :
    dec (.txByte 0b11_00000001) atHand = some (.ackNotOk 0x01) ∧ dec (.txByte 0b11_11111111) atHand = some (.ackNotOk 0xFF) := by decide
theorem test_decode_ackoutOk : dec (.ackOut 0x00) noByte = some .ackoutOk := by decide
theorem test_decode_ackoutCrcFail : dec (.ackOut 0x01) { noByte with verdict := .checksumFailed } = some .ackoutCrcFail := by decide
theorem test_decode_outcomes :
    dec (.outcome 0b00) noByte = some .outOk ∧ dec (.outcome 0b01) noByte = some .outReset ∧
    dec (.outcome 0b10) noByte = some .outChecksumFailed ∧ dec (.outcome 0b11) noByte = some .outSendFailed := by decide

theorem test_decode_rejects_reserved_states :
    decError (.rxStep 0b110) noByte = some .reservedRxState ∧ decError (.rxStep 0b111) noByte = some .reservedRxState ∧
    decError (.rxByte 0b110_00000000) atHand = some .reservedRxState ∧
    decError (.rxByte 0b111_11111111) atHand = some .reservedRxState := by decide
theorem test_decode_rejects_idle_words :
    decError (.rxStep 0b000) noByte = some .idleState ∧ decError (.txStep 0b00) noByte = some .idleState := by decide
theorem test_decode_rejects_bytes_no_state_classifies :
    decError (.rxByte 0b100_00000000) atHand = some .takesNoByte ∧ decError (.rxByte 0b101_00000000) atHand = some .takesNoByte ∧
    decError (.rxByte 0b000_11111111) atHand = some .takesNoByte ∧ decError (.txByte 0b01_00000000) atHand = some .takesNoByte ∧
    decError (.txByte 0b10_00000000) atHand = some .takesNoByte := by decide
theorem test_decode_rejects_a_step_a_byte_selects :
    decError (.rxStep 0b001) atHand = some .byteSelects ∧ decError (.txStep 0b11) atHand = some .byteSelects := by decide
theorem test_decode_rejects_a_foreign_ack_byte : decError (.ackOut 0x01) noByte = some .notTheAckCode := by decide
theorem test_tableWord_out_of_range :
    decodeTableWord 2 4 = none ∧ decodeTableWord 3 8 = none ∧ decodeTableWord 8 8 = none ∧ decodeTableWord 10 1024 = none ∧
    decodeTableWord 16 2048 = none := by decide

/-! ### CRC engine (95_test_vectors.md V-CRC-1, V-CRC-10; ALT is 43_crc_validator.md R178) -/

/-- The reference configuration with the alternative CRC. -/
def alt : Config := { Config.reference with crc := .lsbFirstA001 }

theorem test_crc_single_bytes :
    (CrcEngine.msbFirst1021.update 0 0x00 = 0x0000 ∧ CrcEngine.msbFirst1021.update 0 0x01 = 0x1021 ∧
      CrcEngine.msbFirst1021.update 0 0x80 = 0x9188 ∧ CrcEngine.msbFirst1021.update 0 0xFF = 0x1EF0) ∧
    CrcEngine.lsbFirstA001.update 0 0x00 = 0x0000 ∧ CrcEngine.lsbFirstA001.update 0 0x01 = 0xC0C1 ∧
    CrcEngine.lsbFirstA001.update 0 0x80 = 0xA001 ∧ CrcEngine.lsbFirstA001.update 0 0xFF = 0x4040 := by decide
theorem test_crc_check_value :
    crc16 Config.reference [0x31, 0x32, 0x33, 0x34, 0x35, 0x36, 0x37, 0x38, 0x39] = 0x31C3 ∧
    crc16 alt [0x31, 0x32, 0x33, 0x34, 0x35, 0x36, 0x37, 0x38, 0x39] = 0xBB3D := by decide +kernel
theorem test_crc_of_the_example :
    crc16 Config.reference [0x01, 0x05, 0x10, 0x00] = 0x9E37 ∧ crc16 Config.reference [0x01, 0x05, 0x10, 0x00, 0x00, 0x00] = 0x7D50 ∧
    crc16 Config.reference [0x02, 0x07, 0xDE, 0xAD, 0xBE, 0xEF] = 0x28C3 ∧
    crc16 alt [0x01, 0x05, 0x10, 0x00, 0x00, 0x00] = 0x11C9 ∧ crc16 alt [0x02, 0x07, 0xDE, 0xAD, 0xBE, 0xEF] = 0xC72F := by decide +kernel
theorem test_crc_after_one_flipped_bit :
    crc16 Config.reference [0x01, 0x05, 0x11, 0x00, 0x00, 0x00] = 0x0BE4 ∧
    crc16 Config.reference [0x01, 0x05, 0x18, 0x00, 0x00, 0x00] = 0xF893 := by decide +kernel
theorem test_crc_starts_from_its_initial_value : crc16 { Config.reference with crcInit := 0x1021 } [0x05] = 0x6394 := by decide

/-! ### Reference codec (95_test_vectors.md section 3) -/

/-- The Packet of the source's example (V-ENC-1). -/
def pkt : Packet := #v[0x01, 0x05, 0x10, 0x00, 0x00, 0x00, 0x50, 0x7D]
/-- Its encoded body. -/
def body : List Byte := [0x00, 0x41, 0x22, 0x00, 0x00, 0x00, 0x00, 0x50, 0x3E, 0x40]

theorem test_encode_example : Codec.reference.body pkt = body := by decide
theorem test_encode_mixed :
    Codec.reference.body #v[0x02, 0x07, 0xDE, 0xAD, 0xBE, 0xEF, 0xC3, 0x28] =
      [0x01, 0x01, 0x7B, 0x6A, 0x6D, 0x7B, 0x5F, 0x43, 0x14, 0x00] := by decide
theorem test_encode_ones :
    Codec.reference.body #v[0xFF, 0xFF, 0xFF, 0xFF, 0xFF, 0xFF, 0xDF, 0x97] =
      [0x7F, 0x7F, 0x7F, 0x7F, 0x7F, 0x7F, 0x7F, 0x5F, 0x4B, 0x40] := by decide
theorem test_decode_example : Codec.reference.decode body = (pkt, 8) := by decide
theorem test_decode_ignores_bit_7 :
    Codec.reference.decode [0x80, 0xC1, 0xA2, 0x80, 0x80, 0x80, 0x80, 0xD0, 0xBE, 0xC0] = (pkt, 8) := by decide
theorem test_decode_short :
    Codec.reference.decode [0x00, 0x41, 0x22, 0x00, 0x00] = (#v[0x01, 0x05, 0x10, 0x00, 0x00, 0x00, 0x00, 0x00], 4) ∧
    Codec.reference.decode [] = (#v[0x00, 0x00, 0x00, 0x00, 0x00, 0x00, 0x00, 0x00], 0) := by decide
theorem test_decode_long :
    Codec.reference.decode (body ++ [0x00, 0x00, 0x00, 0x00, 0x00, 0x00]) = (pkt, 8) := by decide
theorem test_valid_len_by_length :
    (List.range 17).map (fun n => (referenceValidLen n).val) = [0, 0, 1, 2, 3, 4, 5, 6, 7, 7, 8, 8, 8, 8, 8, 8, 8] := by decide

/-! ### Single steps (values from 95_test_vectors.md, under the reference configuration) -/

/-- A sample that offers the byte `b`, with no abort and a ready transport. -/
def offers (b : Byte) : Ports := { Ports.still with rxAvail := true, rxData := b }
/-- A sample in which the transport refuses. -/
def refusing : Ports := { Ports.still with txReady := false }
/-- A sample with the abort asserted, a byte available and a ready transport. -/
def aborting (b : Byte) : Ports := { offers b with abort := true }
/-- A sample with reset asserted. -/
def resetting : Ports := { aborting 0x00 with rst := true, cmd := 2 }

/-- The block in a receive, with the port samples to come. -/
def receiving (rx : Receiver) (ps : List Ports) : State :=
  { State.reset with rx := rx, cmdKind := .receivePacket, io := { State.reset.io with inputs := ps } }
/-- The block in a send, with the port samples to come. -/
def sending (tx : Sender) (ps : List Ports) : State :=
  { State.reset with tx := tx, cmdKind := .sendPacket, io := { State.reset.io with inputs := ps } }
/-- The idle block with one port sample. -/
def idle (p : Ports) : State := { State.reset with io := { State.reset.io with inputs := [p] } }

/-- The receiver in SeekSentinel with a count. -/
def seeking (cnt : BitVec 2) : Receiver := { State.reset.rx with state := .seekSentinel, sentCnt := cnt }
/-- The receiver in ReadLength. -/
def readingLength : Receiver := { State.reset.rx with state := .readLength }
/-- The receiver in ReadBody, after the first bytes `bs` of a body of length `len`. -/
def readingBody (len : Byte) (bs : List Byte) : Receiver :=
  { State.reset.rx with state := .readBody, len := len, idx := bs.length, buf := bs ++ List.replicate (16 - bs.length) 0 }
/-- The receiver in Validate, with a whole body. -/
def validating (bs : List Byte) : Receiver := { readingBody (BitVec.ofNat 8 bs.length) bs with state := .validate }
/-- The receiver in Acknowledge after the body of the example. -/
def acknowledging (v : Verdict) : Receiver :=
  { validating body with state := .acknowledge, pkt := pkt, vlen := 8, crc := 0x7D50, verdict := v }
/-- The sender after the acceptance of the example command. -/
def prepared : Sender :=
  { State.reset.tx with
    pkt := pkt, crc := 0x7D50, enc := #v[0x00, 0x41, 0x22, 0x00, 0x00, 0x00, 0x00, 0x50, 0x3E, 0x40], encLen := 10, state := .drain }
/-- The sender in SendFrame of attempt `att` at a position. -/
def framing (att : Nat) (pos : BitVec 4) : Sender := { prepared with attempt := att, pos := pos, state := .sendFrame }
/-- The sender in WaitAck of attempt `att`. -/
def waiting (att wait : Nat) : Sender := { prepared with attempt := att, pos := 13, wait := wait, state := .waitAck }

/-- What `f` reads in the state after one step, if there is one. -/
def after {α : Type} (s : State) (f : State → α) : Option α :=
  match step s with
  | .next t => some (f t)
  | .fault _ => none
  | .refused _ => none
/-- What `f` reads in the state after one instruction, if there is one. -/
def ran {α : Type} (i : Instr) (s : State) (f : State → α) : Option α :=
  match exec i s with
  | .next t => some (f t)
  | .fault _ => none
  | .refused _ => none

-- V-CMD-1
theorem test_step_nop : after (idle (aborting 0xFF)) (fun t => (t.busy, t.io.out, t.io.taken)) = some (false, Outputs.low, []) := by decide
-- P4 step 0, R113: the count of an earlier command earns no credit
theorem test_step_receivePacket :
    after { idle { Ports.still with cmd := 1 } with rx := { State.reset.rx with sentCnt := 1 } }
      (fun t => (t.rx.state, t.rx.sentCnt, t.cmdKind, t.res.done)) = some (.seekSentinel, 0, .receivePacket, false) := by decide
-- V-TX-1 step 0
theorem test_step_sendPacket :
    after (idle { Ports.still with cmd := 2, operands := operands })
      (fun t => (t.tx.pkt, t.tx.crc, t.tx.enc.toList, t.tx.encLen, t.tx.state)) = some (pkt, 0x7D50, body, 10, .drain) := by decide +kernel
-- V-CMD-3
theorem test_step_sendPacket_clears_results :
    after { idle { Ports.still with cmd := 2 } with res := { done := true, outcome := .ok, pkt := pkt, pktValid := true } }
      (fun t => (t.res.done, t.res.pktValid, t.res.pkt)) = some (false, false, pkt) := by decide
-- V-TX-5
theorem test_step_sendPacketSingleByte :
    after (idle { Ports.still with cmd := 3, operands := { operands with msgType := 0x09 } })
      (fun t => (t.tx.pkt, t.frame)) =
      some (#v[0x00, 0x09, 0x2A, 0x00, 0x00, 0x00, 0x99, 0xF7],
        [0xFF, 0xFF, 0x0A, 0x00, 0x02, 0x25, 0x20, 0x00, 0x00, 0x01, 0x19, 0x7B, 0x40]) := by decide +kernel
-- V-RX-1 steps 1 and 2
theorem test_step_seekSentinel_first :
    after (receiving (seeking 0) [offers 0xFF]) (fun t => (t.rx.state, t.rx.sentCnt, t.io.out)) =
      some (.seekSentinel, 1, Outputs.pop) := by decide
theorem test_step_seekSentinel_second :
    after (receiving (seeking 1) [offers 0xFF]) (fun t => (t.rx.state, t.rx.sentCnt)) = some (.readLength, 0) := by decide
-- V-RX-3
theorem test_step_seekOther :
    after (receiving (seeking 1) [offers 0x00]) (fun t => (t.rx.state, t.rx.sentCnt)) = some (.seekSentinel, 0) := by decide
-- V-RX-8 step 3
theorem test_step_lenSentinel :
    after (receiving readingLength [offers 0xFF]) (fun t => (t.rx.state, t.rx.sentCnt, t.io.sent)) = some (.seekSentinel, 1, []) := by
  decide
-- V-RX-1 step 3, V-RX-5 step 3
theorem test_step_lenAccept :
    after (receiving readingLength [offers 0x0A]) (fun t => (t.rx.state, t.rx.len, t.rx.idx)) = some (.readBody, 10, 0) := by decide
theorem test_step_lenAccept_zero :
    after (receiving readingLength [offers 0x00]) (fun t => (t.rx.state, t.rx.len)) = some (.validate, 0) := by decide
-- V-RS-1 step 3, V-RS-6
theorem test_step_lenOversize :
    after (receiving readingLength [offers 0x11]) (fun t => (t.rx.state, t.rx.sentCnt, t.rx.len)) = some (.seekSentinel, 0, 0) := by
  decide
theorem test_step_lenOversize_254 :
    after (receiving readingLength [offers 0xFE]) (fun t => (t.rx.state, t.rx.sentCnt)) = some (.seekSentinel, 0) := by decide
-- V-RS-2 step 7
theorem test_step_bodySentinel :
    after (receiving (readingBody 10 [0x00, 0x41, 0x22]) [offers 0xFF])
      (fun t => (t.rx.state, t.rx.sentCnt, t.rx.idx, t.rx.buf.take 3)) = some (.seekSentinel, 1, 3, [0x00, 0x41, 0x22]) := by decide
-- V-RX-1 step 13, V-RX-6 step 4
theorem test_step_bodyData_last :
    after (receiving (readingBody 10 [0x00, 0x41, 0x22, 0x00, 0x00, 0x00, 0x00, 0x50, 0x3E]) [offers 0x40])
      (fun t => (t.rx.state, t.rx.idx, t.rx.buf.take 10)) = some (.validate, 10, body) := by decide
theorem test_step_bodyData_more :
    after (receiving (readingBody 10 [0x00]) [offers 0x41]) (fun t => (t.rx.state, t.rx.idx, t.rx.buf.take 2)) =
      some (.readBody, 2, [0x00, 0x41]) := by decide
-- V-ABT-1 step 6, V-ABT-3 step 17
theorem test_step_rxAbort :
    after (receiving (readingBody 10 [0x00, 0x41]) [aborting 0x22])
      (fun t => (t.busy, t.res.outcome, t.res.pktValid, t.io.taken, t.rx.idx)) = some (false, .reset, false, [], 2) := by decide
theorem test_step_rxAbort_in_acknowledge :
    after (receiving (acknowledging .ok) [aborting 0x00]) (fun t => (t.res.outcome, t.res.pktValid, t.io.sent)) =
      some (.reset, false, []) := by decide
-- V-RX-4 step 2
theorem test_step_rxEmptyPoll :
    after (receiving (seeking 1) [Ports.still]) (fun t => (t.rx.sentCnt, t.io.out)) = some (1, Outputs.pulse) := by decide
-- V-CRC-2, V-CRC-4
theorem test_step_validate :
    after (receiving (validating body) [Ports.still]) (fun t => (t.rx.pkt, t.rx.vlen, t.rx.crc, t.rx.verdict, t.rx.state)) =
      some (pkt, 8, 0x7D50, .ok, .acknowledge) := by decide +kernel
theorem test_step_validate_short :
    after (receiving (validating []) [Ports.still]) (fun t => (t.rx.vlen, t.rx.crc, t.rx.verdict)) =
      some (0, 0x0000, .checksumFailed) := by decide +kernel
-- V-ACK-1, V-ACK-2
theorem test_step_acknowledge_ok :
    after (receiving (acknowledging .ok) [Ports.still]) (fun t => (t.res, t.io.sent, t.busy)) =
      some ({ done := true, outcome := .ok, pkt := pkt, pktValid := true }, [0x00], false) := by decide
theorem test_step_acknowledge_failed :
    after (receiving (acknowledging .checksumFailed) [Ports.still]) (fun t => (t.res.outcome, t.res.pktValid, t.io.sent)) =
      some (.checksumFailed, false, [0x01]) := by decide
-- V-TX-2 step 1
theorem test_step_drain :
    after (sending prepared [offers 0x01]) (fun t => (t.tx.attempt, t.tx.pos, t.tx.state, t.io.taken)) =
      some (1, 0, .sendFrame, [0x01]) := by decide
-- V-TX-1 step 14, V-TX-3 step 5
theorem test_step_sendFrame_last :
    after (sending (framing 1 12) [Ports.still]) (fun t => (t.tx.pos, t.tx.wait, t.tx.state, t.io.sent)) =
      some (13, 0, .waitAck, [0x40]) := by decide
theorem test_step_sendFrame_refused :
    after (sending (framing 1 3) [{ refusing with abort := true }]) (fun t => (t.tx.pos, t.tx.state, t.io.out)) =
      some (3, .sendFrame, Outputs.low) := by decide
-- V-ABT-4
theorem test_step_txAbort :
    after (sending (waiting 1 0) [aborting 0x00]) (fun t => (t.res.outcome, t.io.taken, t.tx.attempt, t.busy)) =
      some (.reset, [], 1, false) := by decide
-- V-ACK-5 steps 18 and 54
theorem test_step_waitAckEmptyPoll_times_out :
    after (sending (waiting 1 3) [Ports.still]) (fun t => (t.tx.wait, t.tx.state, t.io.out)) = some (4, .drain, Outputs.low) := by decide
theorem test_step_waitAckEmptyPoll_exhausts :
    after (sending (waiting 3 3) [Ports.still]) (fun t => (t.tx.wait, t.tx.attempt, t.res.outcome, t.busy)) =
      some (4, 3, .sendFailed, false) := by decide
-- V-TX-1 step 16
theorem test_step_ackOk :
    after (sending (waiting 1 1) [offers 0x00]) (fun t => (t.res.outcome, t.res.pktValid, t.busy)) = some (.ok, false, false) := by decide
-- V-ACK-4, V-ACK-6 step 47
theorem test_step_ackNotOk :
    after (sending (waiting 1 1) [offers 0x7E]) (fun t => (t.tx.state, t.tx.attempt, t.busy)) = some (.drain, 1, true) := by decide
theorem test_step_ackNotOk_last :
    after (sending (waiting 3 1) [offers 0xFF]) (fun t => (t.res.outcome, t.tx.wait)) = some (.sendFailed, 1) := by decide
-- 45_ack_handshake.md R211: ACKOUT rows
theorem test_exec_ackout :
    ran .ackoutOk (receiving (acknowledging .ok) [Ports.still]) (fun t => (t.io.sent, t.res.outcome)) = some ([0x00], .ok) ∧
    ran .ackoutCrcFail (receiving (acknowledging .checksumFailed) [Ports.still]) (fun t => (t.io.sent, t.res.outcome)) =
      some ([0x01], .checksumFailed) := by decide
-- 40_commands.md R116: OUTCOME rows
theorem test_exec_outcomes :
    ran .outOk (receiving (acknowledging .ok) []) (fun t => (t.res.pkt, t.res.pktValid)) = some (pkt, true) ∧
    ran .outReset (receiving (acknowledging .ok) []) (fun t => (t.res.outcome, t.res.pktValid)) = some (.reset, false) ∧
    ran .outChecksumFailed (receiving (acknowledging .ok) []) (fun t => t.outcomeO) = some 2 ∧
    ran .outSendFailed (sending (waiting 3 4) []) (fun t => t.outcomeO) = some 3 := by decide
-- V-RST-2
theorem test_step_reset :
    after { sending (framing 1 5) [resetting] with io := { State.reset.io with inputs := [resetting], sent := [0xFF, 0xFF] } }
      (fun t => (t.tx.state, t.tx.pos, t.res.done, t.io.sent, t.io.out)) = some (.txIdle, 0, false, [0xFF, 0xFF], Outputs.low) := by
  decide
-- The model's own faults (log 9)
theorem test_step_faults :
    step (receiving { readingBody 10 [] with idx := 16 } [offers 0x41]) = .fault .rxBufIndex ∧
    step (receiving { validating [] with len := 17 } [Ports.still]) = .fault .rxBufIndex ∧
    step (sending (framing 1 13) [Ports.still]) = .fault .frameIndex := ⟨by rfl, by rfl, by rfl⟩
-- What the host's probe asks: a table word is run as the first step
theorem test_withFetchWord :
    after (State.reset.withFetchWord 16 0x341) (fun t => (t.rx.idx, t.io.taken)) = some (1, [0x41]) ∧
    after (State.reset.withFetchWord 8 1) (fun t => t.rx.state) = some .seekSentinel ∧
    after (State.reset.withFetchWord 8 4) (fun t => t.rx.state) = some .acknowledge ∧
    after (State.reset.withFetchWord 10 0x300) (fun t => t.res.outcome) = some .ok := by decide

/-! ### Witnesses: a concrete state and operands that meet the hypotheses of each statement, clause by clause -/

theorem hyp_DecodeEncodeAgree :
    Instr.wf Config.reference (.lenAccept 0) = true ∧ Instr.wf Config.reference (.lenAccept 16) = true ∧
    Instr.wf Config.reference (.lenOversize 17) = true ∧ Instr.wf Config.reference (.lenOversize 254) = true ∧
    Instr.wf Config.reference (.ackNotOk 0xFF) = true ∧ Instr.wf Config.reference (.rxAbort .acknowledge) = true := by decide

theorem hyp_DecodedInstructionIsItsTableRow :
    decode Config.reference ⟨.rxByte 0b010_00010000, atHand⟩ = .ok (.lenAccept 16) ∧
    (Instr.lenAccept 16).rowMatches Config.reference ⟨.rxByte 0b010_00010000, atHand⟩ = true ∧
    decode Config.reference ⟨.rxStep 0b011, { noByte with abort := true }⟩ = .ok (.rxAbort .readBody) ∧
    (Instr.rxEmptyPoll .readBody).rowMatches Config.reference ⟨.rxStep 0b011, { noByte with abort := true }⟩ = true :=
  ⟨rfl, by decide, rfl, by decide⟩

/-- Bytes for each clause: 0xFF; 17 and 254 above the bound; 0 and 16 within it; 0xFE as another byte. -/
theorem hyp_ReceiverClassifiesEveryByte :
    Config.reference.wf = true ∧ (0xFE : Byte) ≠ 0xFF ∧
    (Config.reference.maxBodyLen < (17 : Byte).toNat ∧ (17 : Byte) ≠ 0xFF) ∧
    (Config.reference.maxBodyLen < (254 : Byte).toNat ∧ (254 : Byte) ≠ 0xFF) ∧
    (0 : Byte).toNat ≤ Config.reference.maxBodyLen ∧ (16 : Byte).toNat ≤ Config.reference.maxBodyLen := by decide

theorem hyp_SenderClassifiesTheAcknowledgement :
    ((sending prepared [offers 0x00]).rx.state = .rxIdle ∧ (sending prepared [offers 0x00]).tx.state = .drain ∧
      (sending prepared [offers 0x00]).ports.rst = false ∧ (sending prepared [offers 0x00]).ports.rxAvail = true) ∧
    ((sending prepared [Ports.still]).ports.rst = false ∧ (sending prepared [Ports.still]).ports.rxAvail = false) ∧
    (0x00 : Byte) = Config.reference.ackOk ∧ (0x01 : Byte) ≠ Config.reference.ackOk ∧ (0xFF : Byte) ≠ Config.reference.ackOk ∧
    Config.reference.ackCrcFail ≠ Config.reference.ackOk := by decide

theorem hyp_StepRunsTheDecodedInstruction :
    (∃ (s : State) (i : Instr) (u : State), s.ports.rst = false ∧ decode s.config s.fetch = .ok i ∧ exec i s = .next u) ∧
    (∃ (s : State) (i : Instr) (r : Fault), s.ports.rst = false ∧ decode s.config s.fetch = .ok i ∧ exec i s = .fault r) :=
  ⟨⟨receiving (seeking 0) [offers 0xFF], .seekSentinel, _, rfl, rfl, rfl⟩,
    ⟨sending (framing 1 13) [Ports.still], .sendFrame, .frameIndex, rfl, rfl, rfl⟩⟩

theorem hyp_EventsAreTakenInOrder :
    (idle resetting).ports.rst = true ∧
    ((receiving (acknowledging .ok) [aborting 0]).rx.state.samplesAbort = true ∧
      (receiving (acknowledging .ok) [aborting 0]).ports.abort = true) ∧
    ((sending (waiting 1 0) [aborting 0]).rx.state = .rxIdle ∧ (sending (waiting 1 0) [aborting 0]).tx.state = .waitAck ∧
      (sending (waiting 1 0) [aborting 0]).ports.abort = true) ∧
    (receiving (validating body) [aborting 0]).rx.state = .validate ∧
    ((sending prepared [aborting 0]).rx.state = .rxIdle ∧ (sending prepared [aborting 0]).tx.state = .drain) ∧
    ((sending (framing 1 0) [aborting 0]).rx.state = .rxIdle ∧ (sending (framing 1 0) [aborting 0]).tx.state = .sendFrame) ∧
    ((receiving readingLength [Ports.still]).ports.abort = false ∧
      (receiving readingLength [Ports.still]).rx.state.pollsByte = true ∧
      (receiving readingLength [Ports.still]).ports.rxAvail = false) ∧
    ((receiving readingLength [offers 16]).rx.state.pollsByte = true ∧
      (receiving readingLength [offers 16]).ports.rxAvail = true) ∧
    (receiving (acknowledging .ok) [Ports.still]).rx.state = .acknowledge ∧
    (sending (waiting 1 0) [Ports.still]).ports.rxAvail = false ∧ (sending (waiting 1 0) [offers 0]).ports.rxAvail = true := by decide

theorem hyp_IdleStepReadsTheCommandPort :
    ∀ c : BitVec 2, (idle { Ports.still with cmd := c }).rx.state = .rxIdle ∧ (idle { Ports.still with cmd := c }).tx.state = .txIdle ∧
      (idle { Ports.still with cmd := c }).ports.rst = false ∧ (idle { Ports.still with cmd := c }).ports.cmd = c ∧
      (idle { Ports.still with cmd := c }).io.inputs = [{ Ports.still with cmd := c }] := by decide

theorem hyp_CommandPortIsIgnoredWhileBusy :
    (receiving (seeking 0) [offers 0xFF]).busy = true ∧ (receiving (seeking 0) [offers 0xFF]).io.inputs = [offers 0xFF] ∧
    (sending (framing 1 0) [Ports.still]).busy = true := by decide

theorem hyp_AbortIsNotSampledOutsidePolling :
    (idle resetting).io.inputs = [resetting] ∧ resetting.rst = true ∧
    (receiving (validating body) [Ports.still]).rx.state = .validate ∧
    ((idle Ports.still).rx.state = .rxIdle ∧ (idle Ports.still).tx.state = .txIdle) ∧
    ((sending prepared [Ports.still]).rx.state = .rxIdle ∧ (sending prepared [Ports.still]).tx.state = .drain) ∧
    ((sending (framing 1 0) [Ports.still]).rx.state = .rxIdle ∧ (sending (framing 1 0) [Ports.still]).tx.state = .sendFrame) := by decide

theorem hyp_TwoSentinelsOpenAFrame :
    (receiving (seeking 1) []).rx.sentCnt + 1 = 2 ∧ (receiving (seeking 0) []).rx.sentCnt + 1 ≠ 2 := by decide

theorem hyp_LengthIsAccepted : (0 : Byte) = 0 ∧ (1 : Byte) ≠ 0 ∧ (16 : Byte) ≠ 0 := by decide

/-- The last element of `rx_buf`, with the body complete, and the first one with the body not complete. -/
theorem hyp_BodyByteIsStored :
    (receiving (readingBody 16 (List.replicate 15 0)) []).rx.idx < (receiving (readingBody 16 (List.replicate 15 0)) []).rx.buf.length ∧
    (receiving (readingBody 16 (List.replicate 15 0)) []).rx.idx + 1 = (receiving (readingBody 16 (List.replicate 15 0)) []).rx.len.toNat ∧
    (receiving (readingBody 16 []) []).rx.idx < (receiving (readingBody 16 []) []).rx.buf.length ∧
    (receiving (readingBody 16 []) []).rx.idx + 1 ≠ (receiving (readingBody 16 []) []).rx.len.toNat := by
  decide

theorem hyp_ReceivingPollIteration :
    ((receiving (readingBody 10 []) [aborting 0xFF]).rx.state.pollsByte = true ∧
      (receiving (readingBody 10 []) [aborting 0xFF]).ports.rst = false ∧
      (receiving (readingBody 10 []) [aborting 0xFF]).ports.abort = true) ∧
    ((receiving (seeking 0) [Ports.still]).rx.state.pollsByte = true ∧ (receiving (seeking 0) [Ports.still]).ports.rst = false ∧
      (receiving (seeking 0) [Ports.still]).ports.abort = false ∧ (receiving (seeking 0) [Ports.still]).ports.rxAvail = false) ∧
    ((receiving readingLength [offers 0]).rx.state.pollsByte = true ∧ (receiving readingLength [offers 0]).ports.rst = false ∧
      (receiving readingLength [offers 0]).ports.abort = false ∧ (receiving readingLength [offers 0]).ports.rxAvail = true) ∧
    ∃ t, step (receiving readingLength [offers 0]) = .next t := ⟨by decide, by decide, by decide, _, rfl⟩

theorem hyp_AbortEndsTheReceive :
    ((receiving (seeking 1) [aborting 0xFF]).rx.state = .seekSentinel ∧ (receiving (seeking 1) [aborting 0xFF]).ports.rst = false ∧
      (receiving (seeking 1) [aborting 0xFF]).ports.abort = true) ∧
    (receiving readingLength [aborting 0]).rx.state = .readLength ∧
    (receiving (readingBody 10 []) [aborting 0]).rx.state = .readBody ∧
    (receiving (acknowledging .ok) [aborting 0]).rx.state = .acknowledge := by decide

/-- Body lengths 0 and 16 (all of `rx_buf`). -/
theorem hyp_ValidateComputesTheVerdict :
    (receiving (validating []) []).rx.len.toNat ≤ (receiving (validating []) []).rx.buf.length ∧
    (receiving (validating (List.replicate 16 0)) []).rx.len.toNat ≤ (receiving (validating (List.replicate 16 0)) []).rx.buf.length := by
  decide

theorem hyp_IntactBodyValidatesOk :
    Codec.reference.decode (Codec.reference.body pkt) = (pkt, 8) ∧
    packetChecksum Config.reference pkt = embeddedChecksum pkt ∧
    (receiving (validating body) []).rx.len.toNat ≤ (receiving (validating body) []).rx.buf.length ∧
    (receiving (validating body) []).rx.buf.take (receiving (validating body) []).rx.len.toNat = Codec.reference.body pkt := by
  decide +kernel

theorem hyp_AcknowledgeSendsTheVerdictOnce :
    ((receiving (acknowledging .ok) [Ports.still]).rx.verdict = .ok ∧ (receiving (acknowledging .ok) [Ports.still]).ports.txReady = true) ∧
    ((receiving (acknowledging .checksumFailed) [refusing]).rx.verdict = .checksumFailed ∧
      (receiving (acknowledging .checksumFailed) [refusing]).ports.txReady = false) := by decide

theorem hyp_AckoutOffersItsCode :
    (Instr.ackoutOk = .ackoutOk ∧ (0x00 : Byte) = Config.reference.ackOk) ∧
    (Instr.ackoutCrcFail = .ackoutCrcFail ∧ (0x01 : Byte) = Config.reference.ackCrcFail) ∧
    (receiving (acknowledging .ok) [Ports.still]).ports.txReady = true ∧
    (receiving (acknowledging .ok) [refusing]).ports.txReady = false := by decide

theorem hyp_DrainTakesAtMostOneByte :
    (sending prepared [offers 0x00]).ports.rxAvail = true ∧ (sending prepared [Ports.still]).ports.rxAvail = false := by decide

/-- The first position and the last one; a ready and a refusing transport. -/
theorem hyp_SendFrameOffersTheByteAtItsPosition :
    (sending (framing 1 0) [Ports.still]).frame[0]? = some 0xFF ∧ (sending (framing 1 12) [Ports.still]).frame[12]? = some 0x40 ∧
    (framing 1 12).pos.toNat + 1 = (framing 1 12).encLen.val + 3 ∧ (framing 1 0).pos.toNat + 1 ≠ (framing 1 0).encLen.val + 3 ∧
    (framing 1 12).pos.toNat < (framing 1 12).encLen.val + 3 ∧
    (sending (framing 1 0) [Ports.still]).ports.txReady = true ∧ (sending (framing 1 0) [refusing]).ports.txReady = false := by decide

theorem hyp_SendFrameHasNoEscape :
    ∃ (s : State) (qs rest : List Ports), s.rx.state = .rxIdle ∧ s.tx.state = .sendFrame ∧ s.tx.pos.toNat < s.tx.encLen.val + 3 ∧
      s.io.inputs = qs ++ rest ∧ qs ≠ [] ∧ ∀ q ∈ qs, q.rst = false ∧ q.txReady = false :=
  ⟨sending (framing 1 3) [refusing, { refusing with abort := true }], [refusing, { refusing with abort := true }], [], by decide⟩

theorem hyp_EmptyAckPollIsCounted :
    ({ Config.reference with ackWaitPolls := none } : Config).ackWaitPolls = none ∧ Config.reference.ackWaitPolls = some 4 ∧
    (waiting 1 3).wait + 1 = 4 ∧ (waiting 1 2).wait + 1 ≠ 4 ∧
    (waiting 3 3).attempt = Config.reference.maxSendAttempts ∧ (waiting 2 3).attempt ≠ Config.reference.maxSendAttempts := by decide

theorem hyp_AcknowledgementDecidesTheAttempt :
    ((sending (waiting 1 0) [offers 0x00]).rx.state = .rxIdle ∧ (sending (waiting 1 0) [offers 0x00]).tx.state = .waitAck ∧
      (sending (waiting 1 0) [offers 0x00]).ports.rst = false ∧ (sending (waiting 1 0) [offers 0x00]).ports.abort = false ∧
      (sending (waiting 1 0) [offers 0x00]).ports.rxAvail = true ∧
      (sending (waiting 1 0) [offers 0x00]).ports.rxData = (sending (waiting 1 0) [offers 0x00]).config.ackOk) ∧
    (sending (waiting 1 0) [offers 0x01]).ports.rxData ≠ (sending (waiting 1 0) [offers 0x01]).config.ackOk ∧
    (sending (waiting 3 0) []).tx.attempt = (sending (waiting 3 0) []).config.maxSendAttempts ∧
    (sending (waiting 2 0) []).tx.attempt ≠ (sending (waiting 2 0) []).config.maxSendAttempts := by decide

theorem hyp_AbortEndsTheSend :
    (sending (waiting 1 0) [aborting 0x00]).rx.state = .rxIdle ∧ (sending (waiting 1 0) [aborting 0x00]).tx.state = .waitAck ∧
    (sending (waiting 1 0) [aborting 0x00]).ports.rst = false ∧ (sending (waiting 1 0) [aborting 0x00]).ports.abort = true := by decide

theorem hyp_ResetStepRestoresEveryRegister : (sending (framing 1 5) [resetting]).ports.rst = true ∧
    (sending (framing 1 5) [resetting]).io.inputs = [resetting] := by decide

theorem hyp_ResetMeetsTheInvariants : Config.reference.wf = true := by decide

/-- A receive in the middle of a body meets the control invariant. -/
theorem control_receiving (p : Ports) : ControlInv (receiving (readingBody 10 [0x00, 0x41, 0x22]) [p]) := by
  constructor <;> exact of_decide_eq_true rfl

/-- A receive about to deliver its Packet meets the control invariant. -/
theorem control_acknowledging (p : Ports) : ControlInv (receiving (acknowledging .ok) [p]) := by
  constructor <;> exact of_decide_eq_true rfl

/-- A send in its last wait meets the control invariant. -/
theorem control_waiting (p : Ports) : ControlInv (sending (waiting 3 3) [p]) := by
  constructor <;> exact of_decide_eq_true rfl

theorem hyp_StepKeepsTheControlInvariant :
    (∃ s t : State, s.busy = true ∧ ControlInv s ∧ step s = .next t) ∧ ∃ s t : State, s.tx.state = .waitAck ∧ ControlInv s ∧ step s = .next t :=
  ⟨⟨receiving (readingBody 10 [0x00, 0x41, 0x22]) [offers 0x00], _, by decide, control_receiving _, rfl⟩,
    ⟨sending (waiting 3 3) [Ports.still], _, by decide, control_waiting _, rfl⟩⟩

theorem hyp_StepKeepsTheResultInvariant :
    ∃ s t : State, s.rx.state = .acknowledge ∧ ControlInv s ∧ ResultInv s ∧ step s = .next t :=
  ⟨receiving (acknowledging .ok) [Ports.still], _, by decide, control_acknowledging _, by constructor <;> decide +kernel, rfl⟩

theorem hyp_StepKeepsTheSenderInvariant : ∃ s t : State, s.tx.state ≠ .txIdle ∧ SenderInv s ∧ step s = .next t :=
  ⟨sending prepared [offers 0x00], _, by decide, by constructor <;> decide +kernel, rfl⟩

theorem hyp_NoStepStopsUnderTheInvariant : ControlInv (receiving (readingBody 10 [0x00, 0x41, 0x22]) [offers 0xFF]) :=
  control_receiving _

/-- Index 16 of 16 elements, a body of 17 bytes, position 13 of 13 frame bytes: the first that does not exist. -/
theorem hyp_OnlyMissingElementsFault :
    (receiving { readingBody 16 [] with idx := 16 } []).rx.buf.length ≤ (receiving { readingBody 16 [] with idx := 16 } []).rx.idx ∧
    (receiving { validating [] with len := 17 } []).rx.buf.length < (receiving { validating [] with len := 17 } []).rx.len.toNat ∧
    (framing 1 13).encLen.val + 3 ≤ (framing 1 13).pos.toNat ∧
    ∃ (s : State) (r : Fault), exec .sendFrame s = .fault r :=
  ⟨by decide, by decide, by decide, sending (framing 1 13) [], .frameIndex, rfl⟩

theorem hyp_NoStepChangesTheConfiguration : ∃ s t : State, step s = .next t := ⟨idle Ports.still, _, rfl⟩

theorem hyp_FrameHoldsSentinelsOnlyAtItsStart :
    ∃ s : State, SenderInv s ∧ s.tx.state ≠ .txIdle ∧ sentinel ∉ s.config.codec.body s.tx.pkt ∧
      s.frame[1]? = some 0xFF ∧ s.frame[12]? = some 0x40 :=
  ⟨sending prepared [], by constructor <;> decide +kernel, by decide, by decide +kernel, by decide, by decide⟩

theorem hyp_ResultsChangeOnlyWhenACommandEnds :
    (∃ s t : State, ControlInv s ∧ s.ports.rst = false ∧ step s = .next t ∧ t.res.pkt ≠ s.res.pkt) ∧
    ∃ s t : State, ControlInv s ∧ s.ports.rst = false ∧ step s = .next t ∧ t.res.outcome ≠ s.res.outcome :=
  ⟨⟨receiving (acknowledging .ok) [Ports.still], _, control_acknowledging _, rfl, rfl, by decide⟩,
    ⟨receiving (acknowledging .ok) [aborting 0], _, control_acknowledging _, rfl, rfl, by decide⟩⟩

/-- The idle block that shows the example Packet, with one port sample. -/
def showing (p : Ports) : State :=
  { idle p with res := { done := true, outcome := .ok, pkt := pkt, pktValid := true }, cmdKind := .receivePacket }

/-- An acceptance, where busy rises and done and valid fall; the end of a receive, where they change the other way. -/
theorem hyp_ResultFlagsFollowTheCommands :
    (∃ s t : State, s.ports.rst = false ∧ step s = .next t ∧ ResultInv s ∧ (s.busy = false ∧ t.busy = true) ∧
      (s.res.done = true ∧ t.res.done = false) ∧ s.res.pktValid = true ∧ t.res.pktValid = false) ∧
    ∃ s t : State, s.ports.rst = false ∧ step s = .next t ∧ (s.busy = true ∧ t.busy = false) ∧
      (s.res.done = false ∧ t.res.done = true) ∧ s.res.pktValid = false ∧ t.res.pktValid = true :=
  ⟨⟨showing { Ports.still with cmd := 1 }, _, rfl, rfl, by constructor <;> decide +kernel, by decide⟩,
    ⟨receiving (acknowledging .ok) [Ports.still], _, rfl, rfl, by decide⟩⟩

theorem hyp_ReceiverTransitionsAreComplete :
    ∃ s t : State, s.ports.rst = false ∧ step s = .next t ∧ t.rx.state ≠ s.rx.state :=
  ⟨receiving readingLength [offers 0], _, rfl, rfl, by decide⟩

theorem hyp_SenderTransitionsAreComplete :
    ∃ s t : State, s.ports.rst = false ∧ s.rx.state = .rxIdle ∧ step s = .next t ∧ t.tx.state ≠ s.tx.state :=
  ⟨sending (waiting 3 3) [Ports.still], _, rfl, rfl, rfl, by decide⟩

theorem hyp_OneTransportCallPerStep : ∃ s t : State, step s = .next t ∧ t.io.out = Outputs.pop :=
  ⟨receiving readingLength [offers 0], _, rfl, by decide⟩

theorem hyp_BytesMoveOnlyWhereTheRulesSay :
    (∃ s t : State, step s = .next t ∧ t.io.out.rxPop = true) ∧
    (∃ s t : State, step s = .next t ∧ t.io.out.txPush = some 0x00 ∧ s.rx.verdict = .ok) ∧
    (∃ s t : State, step s = .next t ∧ t.io.out.txPush = some 0x01 ∧ s.rx.verdict = .checksumFailed) ∧
    ∃ s t : State, step s = .next t ∧ t.io.out.txPush = some 0x40 :=
  ⟨⟨sending prepared [offers 0], _, rfl, by decide⟩, ⟨receiving (acknowledging .ok) [Ports.still], _, rfl, by decide, by decide⟩,
    ⟨receiving (acknowledging .checksumFailed) [Ports.still], _, rfl, by decide, by decide⟩,
    ⟨sending (framing 1 12) [Ports.still], _, rfl, by decide⟩⟩

/-- Runs of 1 and 2 sentinels from SeekSentinel and from ReadBody, followed by 16 (an accepted length) and by 17 (refused). -/
theorem hyp_SentinelRunParity :
    (∃ (s : State) (qs : List Ports) (q : Ports), s.rx.state = .seekSentinel ∧ s.rx.sentCnt = 0 ∧ s.io.inputs = qs ++ q :: [] ∧
      qs ≠ [] ∧ qs.length % 2 = 1 ∧ (∀ r ∈ qs, Ports.delivers 0xFF r) ∧ Ports.delivers 16 q ∧ (16 : Byte) ≠ 0xFF) ∧
    ∃ (s : State) (qs : List Ports) (q : Ports), s.rx.state = .readBody ∧ s.io.inputs = qs ++ q :: [] ∧
      qs ≠ [] ∧ qs.length % 2 = 0 ∧ (∀ r ∈ qs, Ports.delivers 0xFF r) ∧ Ports.delivers 17 q ∧ (17 : Byte) ≠ 0xFF := by
  refine ⟨⟨receiving (seeking 0) [offers 0xFF, offers 16], [offers 0xFF], offers 16, ?_⟩,
    ⟨receiving (readingBody 10 []) [offers 0xFF, offers 0xFF, offers 17], [offers 0xFF, offers 0xFF], offers 17, ?_⟩⟩ <;>
    simp [receiving, seeking, readingBody, offers, Ports.still, Ports.delivers]

/-- The receive of the source's example: `FF FF 0A` and ten body bytes, then Validate and Acknowledge. -/
theorem hyp_WholeFrameIsDelivered :
    ControlInv (receiving (seeking 0) []) ∧ sentinel ∉ Codec.reference.body pkt ∧
    Codec.reference.decode (Codec.reference.body pkt) = (pkt, 8) ∧ packetChecksum Config.reference pkt = embeddedChecksum pkt ∧
    (seeking 0).state = .seekSentinel ∧ (seeking 0).sentCnt = 0 ∧
    List.Forall₂ Ports.delivers
      ([0xFF, 0xFF, BitVec.ofNat 8 (Codec.reference.body pkt).length] ++ Codec.reference.body pkt)
      (([0xFF, 0xFF, BitVec.ofNat 8 (Codec.reference.body pkt).length] ++ Codec.reference.body pkt).map offers) ∧
    Ports.still.rst = false ∧ Ports.still.abort = false ∧ Ports.still.txReady = true := by
  refine ⟨?_, by decide +kernel, by decide +kernel, by decide +kernel, by decide, by decide, ?_, by decide, by decide, by decide⟩
  · constructor <;> exact of_decide_eq_true rfl
  · simp [List.forall₂_map_right_iff, Ports.delivers, offers, Ports.still]

/-- An empty encoding (`|F| = 3`) and four samples: the shortest attempt. -/
theorem hyp_AttemptHandsOverTheFrame :
    ∃ (s : State) (qs rest : List Ports), s.rx.state = .rxIdle ∧ s.tx.state = .drain ∧ s.io.inputs = qs ++ rest ∧
      qs.length = 1 + (s.tx.encLen.val + 3) ∧ ∀ q ∈ qs, q.rst = false ∧ q.txReady = true :=
  ⟨sending { prepared with encLen := 0 } (List.replicate 4 Ports.still), List.replicate 4 Ports.still, [], by decide⟩

/-- One attempt of one poll with an empty encoding: five samples. -/
theorem hyp_RetryExhaustionTakesExactlyItsSteps :
    ∃ (s : State) (n : Nat) (qs rest : List Ports), s.config.wf = true ∧ s.config.ackWaitPolls = some n ∧ s.rx.state = .rxIdle ∧
      s.tx.state = .drain ∧ s.tx.attempt = 0 ∧ s.io.inputs = qs ++ rest ∧ (∀ q ∈ qs, Ports.silent q) ∧
      qs.length = s.config.maxSendAttempts * (1 + (s.tx.encLen.val + 3) + n) := by
  refine ⟨{ sending { prepared with encLen := 0 } (List.replicate 5 Ports.still) with
      config := { Config.reference with maxSendAttempts := 1, ackWaitPolls := some 1 } }, 1, List.replicate 5 Ports.still, [], ?_⟩
  refine ⟨by decide, rfl, rfl, rfl, rfl, by decide, ?_, by decide⟩
  simp [Ports.silent, Ports.still]

theorem hyp_ReferenceCodecIsLawful : (0x41 : Byte) ∈ Codec.reference.body pkt := by decide +kernel

theorem hyp_SingleBitChangesAreDetected :
    Config.reference.crc = .msbFirst1021 ∧ alt.crc = .lsbFirstA001 ∧
    OneBitApart [0x01, 0x05, 0x10, 0x00, 0x00, 0x00] [0x01, 0x05, 0x11, 0x00, 0x00, 0x00] :=
  ⟨rfl, rfl, rfl, 2, 0, by decide, by decide, by decide⟩

end Sys2Proof.Tests
end

section
/-! PROOFS. Family 00_scope.md: no step changes the configuration (R8), and a step makes at most one effective call to the
outside (R10).  Both are read off the one instruction a step runs (`step_cases`). -/

namespace Sys2Proof.Machine

open Sys2Proof

variable {s t u : State}

/-! ### The configuration -/

@[simp] theorem resetStep_config (s : State) : (resetStep s).config = s.config := rfl

@[simp] theorem State.waitPolled_config (s : State) : s.waitPolled.config = s.config := s.waitPolled_onlyEdge.1

@[simp] theorem State.drained_config (s : State) : s.drained.config = s.config := s.drained_onlyEdge.1

@[simp] theorem offerAck_config (a : Byte) (o : CmdOutcome) (s : State) : (offerAck a o s).config = s.config := by
  unfold offerAck; split <;> simp

@[simp] theorem frameByteSent_config (b : Byte) (s : State) : (frameByteSent b s).config = s.config := by
  unfold frameByteSent; split <;> rfl

/-- SEEK.SENTINEL takes the sentinel and touches only receiver registers (41_receiver_framer.md R131, R132). -/
theorem execSeekSentinel_next (h : execSeekSentinel s = .next u) : OnlyReceiver s u ∧ u.io = (s.took sentinel).io := by
  unfold execSeekSentinel at h
  split at h <;> cases h <;> exact ⟨⟨rfl, rfl, rfl, rfl⟩, rfl⟩

/-- No instruction changes the configuration, in whatever state it runs. -/
theorem exec_config {i : Instr} (he : exec i s = .next u) : u.config = s.config := by
  cases i with
  | nop | receivePacket | sendPacket | sendPacketSingleByte => cases he; rfl
  | seekOther | lenSentinel | lenAccept | lenOversize | bodySentinel | rxEmptyPoll => cases he; rfl
  | rxAbort | txAbort | ackOk | outOk | outReset | outChecksumFailed | outSendFailed => cases he; simp
  | acknowledge | ackoutOk | ackoutCrcFail => cases he; simp
  | ackNotOk | drain => cases he; simp
  | seekSentinel =>
    obtain ⟨⟨hconfig, -⟩, -⟩ := execSeekSentinel_next he
    exact hconfig
  | bodyData =>
    obtain ⟨-, rfl⟩ := execBodyData_next he
    rfl
  | validate =>
    obtain ⟨-, rfl⟩ := execValidate_next he
    rfl
  | sendFrame =>
    obtain ⟨b, -, ⟨-, rfl⟩ | ⟨-, rfl⟩⟩ := execSendFrame_next he <;> simp
  | waitAckEmptyPoll =>
    obtain ⟨-, rfl⟩ | ⟨n, -, -, rfl⟩ | ⟨n, -, -, rfl⟩ := execWaitAckEmptyPoll_next he <;> simp

/-- Settles O42: the reset step keeps the configuration, and so does every instruction. -/
theorem noStepChangesTheConfiguration : Obligations.NoStepChangesTheConfiguration := by
  intro s t h
  obtain ⟨-, rfl⟩ | ⟨-, i, u, -, he, rfl⟩ := step_cases h
  · exact resetStep_config s
  · rw [State.advance_config, exec_config he]

/-! ### The edge: what each call drives -/

theorem quiet_drives (s : State) : Drives Outputs.low [] [] s s.quiet := by simp [Drives]

theorem yielded_drives (s : State) : Drives Outputs.pulse [] [] s s.yielded := by simp [Drives, Outputs.pulse, Outputs.low]

theorem took_drives (b : Byte) (s : State) : Drives Outputs.pop [] [b] s (s.took b) := by
  simp [Drives, Outputs.pop, Outputs.low]

theorem pushed_drives (b : Byte) (s : State) : Drives (Outputs.push b) [b] [] s (s.pushed b) := by
  simp [Drives, Outputs.push, Outputs.low]

/-- The effective call a step of `s` that leads to `u` made to the outside (00_scope.md R10, R11): none, `Yield`, a `TryRecv`
that answered a byte, or a `TrySend` that was taken. -/
inductive TransportCall (s u : State) : Prop where
  | none (drives : Drives Outputs.low [] [] s u)
  | yield (drives : Drives Outputs.pulse [] [] s u)
  | recv (b : Byte) (offered : s.tryRecv = some b) (drives : Drives Outputs.pop [] [b] s u)
  | send (b : Byte) (ready : s.ports.txReady = true) (drives : Drives (Outputs.push b) [b] [] s u)

/-- The call is read off the edge alone: registers written beside it do not matter. -/
theorem TransportCall.of_io_eq {v : State} (h : TransportCall s v) (hio : u.io = v.io) : TransportCall s u := by
  cases h with
  | none d => exact .none (by rwa [Drives, hio])
  | yield d => exact .yield (by rwa [Drives, hio])
  | recv b hb d => exact .recv b hb (by rwa [Drives, hio])
  | send b hr d => exact .send b hr (by rwa [Drives, hio])

theorem TransportCall.quiet (s : State) : TransportCall s s.quiet := .none (quiet_drives s)

theorem TransportCall.yielded (s : State) : TransportCall s s.yielded := .yield (yielded_drives s)

theorem TransportCall.took {b : Byte} (h : s.tryRecv = some b) : TransportCall s (s.took b) := .recv b h (took_drives b s)

theorem TransportCall.pushed (b : Byte) (h : s.ports.txReady = true) : TransportCall s (s.pushed b) :=
  .send b h (pushed_drives b s)

/-- Drain's one `TryRecv` (44_sender_framer.md R195). -/
theorem TransportCall.drained (s : State) : TransportCall s s.drained := by
  unfold State.drained
  split
  · next b hb => exact .took hb
  · exact .quiet s

/-- The empty poll of WaitAck only may yield (45_ack_handshake.md R219). -/
theorem TransportCall.waitPolled (s : State) : TransportCall s s.waitPolled := by
  unfold State.waitPolled
  split
  · exact .yielded s
  · exact .quiet s

/-- An acknowledgement byte is sent to a ready transport, else the step yields (45_ack_handshake.md R212, R213). -/
theorem TransportCall.offerAck (a : Byte) (o : CmdOutcome) (s : State) : TransportCall s (offerAck a o s) := by
  unfold Machine.offerAck
  split
  · next hready => exact (TransportCall.pushed a hready).of_io_eq (finish_io o _)
  · exact .yielded s

@[simp] theorem frameByteSent_io (b : Byte) (s : State) : (frameByteSent b s).io = (s.pushed b).io := by
  unfold frameByteSent; split <;> rfl

/-! ### The one call of a step -/

/-- The selected instruction makes at most one effective call; a byte it takes is the one `TryRecv` answers. -/
theorem Selects.transportCall {i : Instr} (hs : Selects s i) (he : exec i s = .next u) : TransportCall s u := by
  cases hs with
  | nop | receivePacket | sendPacket | sendPacketSingleByte => cases he; exact (TransportCall.quiet s).of_io_eq rfl
  | rxAbort | txAbort => cases he; exact (TransportCall.quiet s).of_io_eq (finish_io _ _)
  | rxEmptyPoll => cases he; exact .yielded s
  | seekSentinel _ _ hb =>
    obtain ⟨-, hio⟩ := execSeekSentinel_next he
    exact (TransportCall.took hb).of_io_eq hio
  | lenSentinel _ _ hb | bodySentinel _ _ hb => cases he; exact (TransportCall.took hb).of_io_eq rfl
  | seekOther b _ _ hb | lenAccept b _ _ hb | lenOversize b _ _ hb => cases he; exact (TransportCall.took hb).of_io_eq rfl
  | bodyData b _ _ hb =>
    obtain ⟨-, rfl⟩ := execBodyData_next he
    exact (TransportCall.took hb).of_io_eq rfl
  | validate =>
    obtain ⟨-, rfl⟩ := execValidate_next he
    exact (TransportCall.quiet s).of_io_eq rfl
  | acknowledge => cases he; exact .offerAck _ _ s
  | drain => cases he; exact (TransportCall.drained s).of_io_eq rfl
  | sendFrame =>
    obtain ⟨b, -, ⟨-, rfl⟩ | ⟨hready, rfl⟩⟩ := execSendFrame_next he
    · exact .quiet s
    · exact (TransportCall.pushed b hready).of_io_eq (frameByteSent_io b s)
  | waitAckEmptyPoll =>
    obtain ⟨-, rfl⟩ | ⟨n, -, -, rfl⟩ | ⟨n, -, -, rfl⟩ := execWaitAckEmptyPoll_next he
    · exact .waitPolled s
    · exact (TransportCall.waitPolled s).of_io_eq (attemptFailed_io _)
    · exact (TransportCall.waitPolled s).of_io_eq rfl
  | ackOk _ _ _ hb => cases he; exact (TransportCall.took hb).of_io_eq (finish_io _ _)
  | ackNotOk b _ _ _ hb => cases he; exact (TransportCall.took hb).of_io_eq (attemptFailed_io _)

/-- A step answers a state with at most one effective call, carried past the step's port sample. -/
theorem step_transportCall (h : step s = .next t) : ∃ u, TransportCall s u ∧ t = u.advance := by
  obtain ⟨-, rfl⟩ | ⟨-, i, u, hs, he, rfl⟩ := step_cases h
  · exact ⟨resetStep s, (TransportCall.quiet s).of_io_eq rfl, rfl⟩
  · exact ⟨u, hs.transportCall he, rfl⟩

/-- Settles O48: the one call of the step, read off its outputs and the two streams. -/
theorem oneTransportCallPerStep : Obligations.OneTransportCallPerStep := by
  intro s t h
  obtain ⟨u, hcall, rfl⟩ := step_transportCall h
  cases hcall with
  | none d =>
    obtain ⟨hout, hsent, htaken, -⟩ := d
    exact .inl ⟨hout, by simpa using hsent, by simpa using htaken⟩
  | yield d =>
    obtain ⟨hout, hsent, htaken, -⟩ := d
    exact .inr (.inl ⟨hout, by simpa using hsent, by simpa using htaken⟩)
  | recv b hb d =>
    obtain ⟨hout, hsent, htaken, -⟩ := d
    obtain ⟨havail, rfl⟩ := State.tryRecv_eq_some.1 hb
    exact .inr (.inr (.inl ⟨hout, havail, by simpa using hsent, htaken⟩))
  | send b hready d =>
    obtain ⟨hout, hsent, htaken, -⟩ := d
    exact .inr (.inr (.inr ⟨b, hout, hready, hsent, by simpa using htaken⟩))

end Sys2Proof.Machine
end

section
/-! PROOFS. Family 10_state.md: the reset values (R46), the invariant of the two state machines (R21 to R37), and the result
port (R38).  What a step does to the result port and to the choice of the machine is said once (`Move`); the ranges of the
registers are kept by each machine on its own (`ReceiverRanges`, `SenderRanges`). -/

namespace Sys2Proof.Machine

open Sys2Proof

variable {s t u : State} {c : Config} {r : Receiver} {x : Sender}

/-! ### Busy and the operations -/

theorem State.busy_of_rx (h : s.rx.state ≠ .rxIdle) : s.busy = true := by simp [State.busy, h]

theorem State.busy_of_tx (h : s.tx.state ≠ .txIdle) : s.busy = true := by simp [State.busy, h]

theorem State.not_busy_iff : s.busy = false ↔ s.rx.state = .rxIdle ∧ s.tx.state = .txIdle := by simp [State.busy]

@[simp] theorem State.advance_busy (s : State) : s.advance.busy = s.busy := rfl

@[simp] theorem finish_busy (o : CmdOutcome) (s : State) : (finish o s).busy = false := by simp [State.not_busy_iff]

/-- Only sender registers differ, whatever a state that differs in its edge alone writes to them. -/
theorem OnlyEdge.withTx (h : OnlyEdge s u) (x : Sender) : OnlySender s { u with tx := x } := by
  obtain ⟨hconfig, hrx, -, hres, hkind⟩ := h
  exact ⟨hconfig, hrx, hres, hkind⟩

theorem frameByteSent_onlySender (b : Byte) (s : State) : OnlySender s (frameByteSent b s) := by
  unfold frameByteSent; split <;> exact ⟨rfl, rfl, rfl, rfl⟩

@[simp] theorem State.drained_rx (s : State) : s.drained.rx = s.rx := s.drained_onlyEdge.2.1

@[simp] theorem State.waitPolled_rx (s : State) : s.waitPolled.rx = s.rx := s.waitPolled_onlyEdge.2.1

@[simp] theorem State.waitPolled_tx (s : State) : s.waitPolled.tx = s.tx := s.waitPolled_onlyEdge.2.2.1

@[simp] theorem frameByteSent_rx (b : Byte) (s : State) : (frameByteSent b s).rx = s.rx := (frameByteSent_onlySender b s).2.1

/-- SEEK.SENTINEL counts the sentinel, and after a first one leads to ReadLength (41_receiver_framer.md R131, R132). -/
theorem execSeekSentinel_rx (h : execSeekSentinel s = .next u) :
    (s.rx.sentCnt = 1 ∧ u.rx = { s.rx with sentCnt := 0, state := .readLength }) ∨
    (s.rx.sentCnt ≠ 1 ∧ u.rx = { s.rx with sentCnt := s.rx.sentCnt + 1 }) := by
  have hsecond : ∀ n : BitVec 2, n + 1 = BitVec.ofNat 2 sentinelCount ↔ n = 1 := by decide
  simp only [execSeekSentinel, hsecond] at h
  split at h
  · next hcnt => cases h; exact .inl ⟨hcnt, rfl⟩
  · next hcnt => cases h; exact .inr ⟨hcnt, rfl⟩

/-- ACKNOWLEDGE ends the command when its byte is taken, else it yields (45_ack_handshake.md R212, R213). -/
theorem execAcknowledge_next (h : execAcknowledge s = .next u) :
    (s.ports.txReady = true ∧ u = finish (verdictOutcome s.rx.verdict) (s.pushed (ackByte s.config s.rx.verdict))) ∨
    (s.ports.txReady = false ∧ u = s.yielded) := by
  cases h
  unfold offerAck
  cases s.ports.txReady <;> simp

/-! ### The parts of the control invariant -/

/-- What the control invariant says about which machine runs: at most one, and of the command's kind (10_state.md R21, R39). -/
structure OneMachine (s : State) : Prop where
  exclusive : s.rx.state = .rxIdle ∨ s.tx.state = .txIdle
  rxKind : s.rx.state ≠ .rxIdle → s.cmdKind = .receivePacket
  txKind : s.tx.state ≠ .txIdle → s.cmdKind = .sendPacket ∨ s.cmdKind = .sendPacketSingleByte

/-- What the control invariant says about the receiver's registers (10_state.md R25 to R28). -/
structure ReceiverRanges (c : Config) (r : Receiver) : Prop where
  sentCnt : r.sentCnt = 0 ∨ r.sentCnt = 1
  sentCntClear : r.state ≠ .rxIdle → r.state ≠ .seekSentinel → r.sentCnt = 0
  bufLength : r.buf.length = c.maxBodyLen
  lenBound : r.len.toNat ≤ c.maxBodyLen
  idxBound : r.idx ≤ r.len.toNat
  bodyOpen : r.state = .readBody → r.idx < r.len.toNat
  bodyFull : r.state = .validate ∨ r.state = .acknowledge → r.idx = r.len.toNat
  noSentinel : sentinel ∉ r.buf.take r.idx

/-- What the control invariant says about the sender's registers (10_state.md R35 to R37). -/
structure SenderRanges (c : Config) (x : Sender) : Prop where
  posBound : x.pos.toNat ≤ codecMaxLen + 3
  posRange : ¬ (x.state = .drain ∧ x.attempt = 0) → x.pos.toNat ≤ x.encLen.val + 3
  posOpen : x.state = .sendFrame → x.pos.toNat < x.encLen.val + 3
  posDone : x.state = .waitAck → x.pos.toNat = x.encLen.val + 3
  attemptBound : x.attempt ≤ c.maxSendAttempts
  attemptLeft : x.state = .drain → x.attempt < c.maxSendAttempts
  attemptStarted : x.state = .sendFrame ∨ x.state = .waitAck → 1 ≤ x.attempt
  waitBound : ∀ n, c.ackWaitPolls = some n → x.wait ≤ n
  waitLeft : x.state = .waitAck → ∀ n, c.ackWaitPolls = some n → x.wait < n

/-- The control invariant is its three parts, under an allowed configuration. -/
theorem controlInv_iff :
    ControlInv s ↔
      s.config.wf = true ∧ OneMachine s ∧ ReceiverRanges s.config s.rx ∧ SenderRanges s.config s.tx := by
  constructor
  · intro h
    exact ⟨h.config, { h with }, { h with }, { h with }⟩
  · rintro ⟨hwf, hone, hrx, htx⟩
    exact { hone, hrx, htx with config := hwf }

/-! ### The receiver's ranges -/

/-- Idle, SeekSentinel and ReadLength ask nothing of the body; the count is 0 or 1, and 0 in ReadLength. -/
theorem ReceiverRanges.leaveBody (h : ReceiverRanges c r) {st : RxState} {n : BitVec 2} (hn : n = 0 ∨ n = 1)
    (hst : st = .rxIdle ∨ st = .seekSentinel ∨ st = .readLength ∧ n = 0) :
    ReceiverRanges c { r with sentCnt := n, state := st } where
  sentCnt := hn
  sentCntClear := by
    obtain rfl | rfl | ⟨-, h0⟩ := hst
    · exact fun hi => absurd rfl hi
    · exact fun _ hs => absurd rfl hs
    · exact fun _ _ => h0
  bufLength := h.bufLength
  lenBound := h.lenBound
  idxBound := h.idxBound
  bodyOpen := by obtain rfl | rfl | ⟨rfl, -⟩ := hst <;> simp
  bodyFull := by obtain rfl | rfl | ⟨rfl, -⟩ := hst <;> simp
  noSentinel := h.noSentinel

theorem ReceiverRanges.idle (h : ReceiverRanges c r) : ReceiverRanges c { r with state := .rxIdle } :=
  h.leaveBody h.sentCnt (.inl rfl)

theorem ReceiverRanges.seek (h : ReceiverRanges c r) {n : BitVec 2} (hn : n = 0 ∨ n = 1) :
    ReceiverRanges c { r with sentCnt := n, state := .seekSentinel } :=
  h.leaveBody hn (.inr (.inl rfl))

/-- An accepted length opens an empty body, or ends one of length 0 (41_receiver_framer.md R136). -/
theorem ReceiverRanges.acceptLength (h : ReceiverRanges c r) (hst : r.state = .readLength) {b : Byte}
    (hb : b.toNat ≤ c.maxBodyLen) :
    ReceiverRanges c { r with len := b, idx := 0, state := if b = 0 then .validate else .readBody } where
  sentCnt := h.sentCnt
  sentCntClear := fun _ _ => h.sentCntClear (by simp [hst]) (by simp [hst])
  bufLength := h.bufLength
  lenBound := hb
  idxBound := Nat.zero_le _
  bodyOpen := by
    by_cases h0 : b = 0
    · simp [h0]
    · exact fun _ => Nat.pos_of_ne_zero fun h => h0 (BitVec.eq_of_toNat_eq h)
  bodyFull := by
    by_cases h0 : b = 0
    · simp [h0]
    · rw [if_neg h0]; simp
  noSentinel := by simp

/-- A stored byte other than the sentinel keeps the stored body free of sentinels. -/
theorem sentinel_notMem_take_set {buf : List Byte} {n : Nat} {b : Byte} (h : sentinel ∉ buf.take n) (hb : b ≠ sentinel)
    (hn : n < buf.length) : sentinel ∉ (buf.set n b).take (n + 1) := by
  rw [List.take_succ_eq_append_getElem (by simpa using hn), List.take_set_of_le (Nat.le_refl n)]
  simpa [h] using hb.symm

/-- A body byte is stored, and the last one ends the body (41_receiver_framer.md R137, R138). -/
theorem ReceiverRanges.storeBody (h : ReceiverRanges c r) (hst : r.state = .readBody) {b : Byte} (hb : b ≠ sentinel)
    (hidx : r.idx < r.buf.length) :
    ReceiverRanges c { r with
      buf := r.buf.set r.idx b, idx := r.idx + 1
      state := if r.idx + 1 = r.len.toNat then .validate else r.state } where
  sentCnt := h.sentCnt
  sentCntClear := fun _ _ => h.sentCntClear (by simp [hst]) (by simp [hst])
  bufLength := by simpa using h.bufLength
  lenBound := h.lenBound
  idxBound := h.bodyOpen hst
  bodyOpen := by
    have hlt := h.bodyOpen hst
    by_cases hlast : r.idx + 1 = r.len.toNat
    · simp [hlast]
    · exact fun _ => Nat.lt_of_le_of_ne hlt hlast
  bodyFull := by
    by_cases hlast : r.idx + 1 = r.len.toNat <;> simp [hlast, hst]
  noSentinel := sentinel_notMem_take_set h.noSentinel hb hidx

/-- Validate leads to Acknowledge; what it computes has no range. -/
theorem ReceiverRanges.validate (h : ReceiverRanges c r) (hst : r.state = .validate) (p : Packet) (v : Fin 9) (w : Word16)
    (o : Verdict) :
    ReceiverRanges c { r with pkt := p, vlen := v, crc := w, verdict := o, state := .acknowledge } where
  sentCnt := h.sentCnt
  sentCntClear := fun _ _ => h.sentCntClear (by simp [hst]) (by simp [hst])
  bufLength := h.bufLength
  lenBound := h.lenBound
  idxBound := h.idxBound
  bodyOpen := by simp
  bodyFull := fun _ => h.bodyFull (.inl hst)
  noSentinel := h.noSentinel

/-- A failed attempt leaves the receiver's ranges, whether it ends the command or not. -/
theorem ReceiverRanges.attemptFailed (h : ReceiverRanges c s.rx) : ReceiverRanges c (attemptFailed s).rx := by
  obtain ⟨-, e⟩ | ⟨-, e⟩ := attemptFailed_cases s <;> rw [e]
  · rw [finish_rx]; exact h.idle
  · exact h

/-- The selected instruction keeps the receiver's ranges. -/
theorem Selects.receiverRanges {i : Instr} (hs : Selects s i) (he : exec i s = .next u)
    (h : ReceiverRanges s.config s.rx) : ReceiverRanges s.config u.rx := by
  cases hs with
  | nop | sendPacket | sendPacketSingleByte | rxEmptyPoll => cases he; exact h
  | receivePacket => cases he; exact h.seek (.inl rfl)
  | rxAbort | txAbort | ackOk => cases he; rw [finish_rx]; exact h.idle
  | seekSentinel hst =>
    obtain ⟨-, e⟩ | ⟨hne, e⟩ := execSeekSentinel_rx he <;> rw [e]
    · exact h.leaveBody (.inl rfl) (.inr (.inr ⟨rfl, rfl⟩))
    · simpa [hst, h.sentCnt.resolve_right hne] using h.seek (.inr rfl)
  | seekOther b hst => cases he; simpa [hst] using h.seek (.inl rfl)
  | lenSentinel | bodySentinel => cases he; exact h.seek (.inr rfl)
  | lenOversize => cases he; exact h.seek (.inl rfl)
  | lenAccept b hst _ _ _ hb => cases he; exact h.acceptLength hst hb
  | bodyData b hst _ _ hb =>
    obtain ⟨hidx, rfl⟩ := execBodyData_next he
    exact h.storeBody hst hb hidx
  | validate hst =>
    obtain ⟨-, rfl⟩ := execValidate_next he
    exact h.validate hst _ _ _ _
  | acknowledge =>
    obtain ⟨-, rfl⟩ | ⟨-, rfl⟩ := execAcknowledge_next he
    · rw [finish_rx]; exact h.idle
    · exact h
  | drain => cases he; simpa using h
  | sendFrame =>
    obtain ⟨b, -, ⟨-, rfl⟩ | ⟨-, rfl⟩⟩ := execSendFrame_next he <;> simpa using h
  | waitAckEmptyPoll =>
    obtain ⟨-, rfl⟩ | ⟨n, -, -, rfl⟩ | ⟨n, -, -, rfl⟩ := execWaitAckEmptyPoll_next he
    · simpa using h
    · exact ReceiverRanges.attemptFailed (by simpa using h)
    · simpa using h
  | ackNotOk b => cases he; exact ReceiverRanges.attemptFailed (s := s.took b) h

/-! ### The sender's ranges -/

/-- An ended command leaves every sender register; from the first Drain, where `tx_pos` may lie outside its frame, none ends. -/
theorem SenderRanges.idle (h : SenderRanges c x) (hd : x.state ≠ .drain) :
    SenderRanges c { x with state := .txIdle } where
  posBound := h.posBound
  posRange := fun _ => h.posRange fun hdrain => hd hdrain.1
  posOpen := by simp
  posDone := by simp
  attemptBound := h.attemptBound
  attemptLeft := by simp
  attemptStarted := by simp
  waitBound := h.waitBound
  waitLeft := by simp

/-- The preparation of a send writes a new frame and leaves `tx_pos` (40_commands.md R114, log 14). -/
theorem SenderRanges.prepare (h : SenderRanges c x) (hc : 1 ≤ c.maxSendAttempts) (p : Packet) (w : Word16)
    (e : Vector Byte 10) (n : Fin 11) :
    SenderRanges c { x with pkt := p, crc := w, enc := e, encLen := n, attempt := 0, state := .drain } where
  posBound := h.posBound
  posRange := fun hfirst => absurd ⟨rfl, rfl⟩ hfirst
  posOpen := by simp
  posDone := by simp
  attemptBound := Nat.zero_le _
  attemptLeft := fun _ => hc
  attemptStarted := by simp
  waitBound := h.waitBound
  waitLeft := by simp

/-- Drain starts the next attempt at the start of the frame (44_sender_framer.md R195). -/
theorem SenderRanges.startAttempt (h : SenderRanges c x) (hst : x.state = .drain) :
    SenderRanges c { x with attempt := x.attempt + 1, pos := 0, state := .sendFrame } where
  posBound := Nat.zero_le _
  posRange := fun _ => Nat.zero_le _
  posOpen := fun _ => Nat.succ_pos _
  posDone := by simp
  attemptBound := h.attemptLeft hst
  attemptLeft := by simp
  attemptStarted := fun _ => Nat.succ_pos _
  waitBound := h.waitBound
  waitLeft := by simp

/-- The last byte of the frame is out: the wait starts (44_sender_framer.md R199). -/
theorem SenderRanges.startWait (h : SenderRanges c x) (hst : x.state = .sendFrame)
    (hc : ∀ n, c.ackWaitPolls = some n → 1 ≤ n) (hlast : x.pos.toNat + 1 = x.encLen.val + 3) :
    SenderRanges c { x with pos := x.pos + 1, wait := 0, state := .waitAck } := by
  have hpos : (x.pos + 1).toNat = x.encLen.val + 3 := (pos_succ_eq_iff _ _).2 hlast
  have := x.encLen.isLt
  exact {
    posBound := by simp only [hpos, codecMaxLen]; omega
    posRange := fun _ => hpos.le
    posOpen := by simp
    posDone := fun _ => hpos
    attemptBound := h.attemptBound
    attemptLeft := by simp
    attemptStarted := fun _ => h.attemptStarted (.inl hst)
    waitBound := fun _ _ => Nat.zero_le _
    waitLeft := fun _ => hc }

/-- Any other byte of the frame moves the position on (44_sender_framer.md R197). -/
theorem SenderRanges.nextByte (h : SenderRanges c x) (hst : x.state = .sendFrame)
    (hlast : x.pos.toNat + 1 ≠ x.encLen.val + 3) : SenderRanges c { x with pos := x.pos + 1 } := by
  have hopen := h.posOpen hst
  have hpos : (x.pos + 1).toNat = x.pos.toNat + 1 := pos_succ_toNat hopen
  have := x.encLen.isLt
  exact { h with
    posBound := by simp only [hpos, codecMaxLen]; omega
    posRange := fun _ => by simp only [hpos]; omega
    posOpen := fun _ => by simp only [hpos]; omega
    posDone := by simp [hst] }

/-- A failed attempt that was not the last one leads to the next (45_ack_handshake.md R220). -/
theorem SenderRanges.retry (h : SenderRanges c x) (hst : x.state = .waitAck)
    (hleft : x.attempt ≠ c.maxSendAttempts) : SenderRanges c { x with state := .drain } where
  posBound := h.posBound
  posRange := fun _ => h.posRange (by simp [hst])
  posOpen := by simp
  posDone := by simp
  attemptBound := h.attemptBound
  attemptLeft := fun _ => Nat.lt_of_le_of_ne h.attemptBound hleft
  attemptStarted := by simp
  waitBound := h.waitBound
  waitLeft := by simp

/-- The wait counter may take any value in its range, below the bound in WaitAck (45_ack_handshake.md R218). -/
theorem SenderRanges.setWait (h : SenderRanges c x) {w : Nat} (hw : ∀ n, c.ackWaitPolls = some n → w ≤ n)
    (hlt : x.state = .waitAck → ∀ n, c.ackWaitPolls = some n → w < n) : SenderRanges c { x with wait := w } :=
  { h with waitBound := hw, waitLeft := hlt }

/-- An attempt that failed in WaitAck, with whatever wait it was left at (45_ack_handshake.md R220). -/
theorem SenderRanges.attemptFailed (h : SenderRanges c x) (hst : x.state = .waitAck) {w : Nat}
    (hw : ∀ n, c.ackWaitPolls = some n → w ≤ n) (hc : s.config = c) (hx : s.tx = { x with wait := w }) :
    SenderRanges c (attemptFailed s).tx := by
  subst hc
  obtain ⟨-, e⟩ | ⟨hleft, e⟩ := attemptFailed_cases s
  · rw [e, finish_tx, hx]
    exact (h.idle (by simp [hst])).setWait hw (by simp)
  · rw [hx] at hleft
    rw [e, hx]
    exact (h.retry hst hleft).setWait hw (by simp)

/-- The selected instruction keeps the sender's ranges; where the receiver runs, the sender is idle. -/
theorem Selects.senderRanges {i : Instr} (hs : Selects s i) (he : exec i s = .next u) (hinv : ControlInv s) :
    SenderRanges s.config u.tx := by
  obtain ⟨hwf, hone, -, h⟩ := controlInv_iff.1 hinv
  obtain ⟨-, -, hattempts, -, hpolls⟩ := wf_facts hwf
  have hend : s.rx.state ≠ .rxIdle → SenderRanges s.config { s.tx with state := .txIdle } := fun hrx =>
    h.idle (by simp [hone.exclusive.resolve_left hrx])
  cases hs with
  | nop | receivePacket | rxEmptyPoll => cases he; exact h
  | sendPacket | sendPacketSingleByte => cases he; exact h.prepare hattempts _ _ _ _
  | seekOther | lenSentinel | lenAccept | lenOversize | bodySentinel => cases he; exact h
  | seekSentinel =>
    obtain ⟨⟨-, htx, -⟩, -⟩ := execSeekSentinel_next he
    rwa [htx]
  | bodyData =>
    obtain ⟨-, rfl⟩ := execBodyData_next he
    exact h
  | validate =>
    obtain ⟨-, rfl⟩ := execValidate_next he
    exact h
  | rxAbort hst =>
    cases he
    rw [finish_tx]
    exact hend fun hidle => by simp [hidle, RxState.samplesAbort] at hst
  | acknowledge hst =>
    obtain ⟨-, rfl⟩ | ⟨-, rfl⟩ := execAcknowledge_next he
    · rw [finish_tx]
      exact hend (by simp [hst])
    · exact h
  | drain _ hst => cases he; exact h.startAttempt hst
  | sendFrame _ hst =>
    obtain ⟨b, -, ⟨-, rfl⟩ | ⟨-, rfl⟩⟩ := execSendFrame_next he
    · exact h
    · obtain ⟨hlast, e⟩ | ⟨hlast, e⟩ := frameByteSent_cases b s <;> rw [e]
      · exact h.startWait hst hpolls hlast
      · exact h.nextByte hst hlast
  | txAbort _ hst | ackOk _ hst => cases he; rw [finish_tx]; exact h.idle (by simp [hst])
  | waitAckEmptyPoll _ hst =>
    have hlt := h.waitLeft hst
    obtain ⟨-, rfl⟩ | ⟨n, hn, hlast, rfl⟩ | ⟨n, hn, hmore, rfl⟩ := execWaitAckEmptyPoll_next he
    · simpa using h
    · exact h.attemptFailed hst hlt s.waitPolled_config rfl
    · refine h.setWait hlt fun _ m hm => ?_
      have := hlt m hm
      rw [hn] at hm
      cases hm
      omega
  | ackNotOk b _ hst => cases he; exact h.attemptFailed hst h.waitBound rfl rfl

/-! ### What a step does to the machines and to the result port -/

/-- Why a command of `s` ends with the outcome `o`: an abort, the taken acknowledgement, or the end of a wait. -/
inductive Ends (s : State) (o : CmdOutcome) : Prop where
  | aborted (outcome : o = .reset)
  | acknowledged (state : s.rx.state = .acknowledge) (noAbort : s.ports.abort = false) (ready : s.ports.txReady = true)
      (outcome : o = verdictOutcome s.rx.verdict)
  | waited (state : s.tx.state = .waitAck) (outcome : o = .ok ∨ o = .sendFailed)

/-- In Acknowledge the decoded Packet, the CRC and the verdict are those of the stored body (43_crc_validator.md R171): what
the result invariant says of that state. -/
def Validated (s : State) : Prop :=
  (s.rx.pkt, s.rx.vlen) = s.config.codec.decode (s.rx.buf.take s.rx.len.toNat) ∧
  s.rx.crc = packetChecksum s.config s.rx.pkt ∧
  s.rx.verdict = verdictOf s.rx.vlen s.rx.crc (embeddedChecksum s.rx.pkt)

/-- What the selected instruction of `s` can do, seen from the machines and the result port: nothing, go on with a receive or a
send, accept a command, or end one. -/
inductive Move (s u : State) : Prop where
  | stays (only : OnlyEdge s u)
  | receives (only : OnlyReceiver s u) (before : s.rx.state ≠ .rxIdle) (after : u.rx.state ≠ .rxIdle)
      (validated : u.rx.state = .acknowledge → Validated u)
  | sends (only : OnlySender s u) (before : s.tx.state ≠ .txIdle) (after : u.tx.state ≠ .txIdle)
  | accepts (command : s.ports.cmd ≠ 0) (before : s.busy = false) (after : u.busy = true) (one : OneMachine u)
      (notYet : u.rx.state ≠ .acknowledge) (res : u.res = { s.res with done := false, pktValid := false })
  | ends (o : CmdOutcome) (v : State) (before : s.busy = true) (only : OnlySender s v) (why : Ends s o) (result : u = finish o v)

/-- The acceptance of a send command, of either kind (40_commands.md R114, R115). -/
theorem Move.acceptSend {k : Command} (hk : k = .sendPacket ∨ k = .sendPacketSingleByte) (head : Vector Byte 6)
    (hrx : s.rx.state = .rxIdle) (htx : s.tx.state = .txIdle) (hcmd : s.ports.cmd ≠ 0) : Move s (acceptSend k head s) :=
  .accepts hcmd (State.not_busy_iff.2 ⟨hrx, htx⟩) (State.busy_of_tx (by simp [Machine.acceptSend]))
    ⟨.inl hrx, fun h => absurd hrx h, fun _ => hk⟩ (by simp [Machine.acceptSend, hrx]) rfl

/-- A failed attempt in WaitAck ends the command or goes on with the send (45_ack_handshake.md R220). -/
theorem Move.attemptFailed {v : State} (hst : s.tx.state = .waitAck) (hv : OnlySender s v) : Move s (attemptFailed v) := by
  have hbefore : s.tx.state ≠ .txIdle := by simp [hst]
  obtain ⟨-, e⟩ | ⟨-, e⟩ := attemptFailed_cases v <;> rw [e]
  · exact .ends _ v (State.busy_of_tx hbefore) hv (.waited hst (.inr rfl)) rfl
  · exact .sends hv hbefore (by simp)

/-- The selected instruction makes one of the moves. -/
theorem Selects.move {i : Instr} (hs : Selects s i) (he : exec i s = .next u) : Move s u := by
  have hquiet : OnlySender s s.quiet := ⟨rfl, rfl, rfl, rfl⟩
  cases hs with
  | nop | rxEmptyPoll => cases he; exact .stays ⟨rfl, rfl, rfl, rfl, rfl⟩
  | receivePacket hrx htx hcmd =>
    cases he
    exact .accepts (by simp [hcmd]) (State.not_busy_iff.2 ⟨hrx, htx⟩) (State.busy_of_rx (by simp))
      ⟨.inr htx, fun _ => rfl, fun h => absurd htx h⟩ (by simp) rfl
  | sendPacket hrx htx hcmd => cases he; exact .acceptSend (.inl rfl) _ hrx htx (by simp [hcmd])
  | sendPacketSingleByte hrx htx hcmd => cases he; exact .acceptSend (.inr rfl) _ hrx htx (by simp [hcmd])
  | seekSentinel hst =>
    obtain ⟨-, e⟩ | ⟨-, e⟩ := execSeekSentinel_rx he <;>
      exact .receives (execSeekSentinel_next he).1 (by simp [hst]) (by simp [e, hst]) (by simp [e, hst])
  | seekOther b hst | lenSentinel hst | lenOversize b hst | bodySentinel hst =>
    cases he
    exact .receives ⟨rfl, rfl, rfl, rfl⟩ (by simp [hst]) (by simp [hst, resync]) (by simp [hst, resync])
  | lenAccept b hst =>
    cases he
    exact .receives ⟨rfl, rfl, rfl, rfl⟩ (by simp [hst]) (by simp; split <;> simp) (by simp; split <;> simp)
  | bodyData b hst =>
    obtain ⟨-, rfl⟩ := execBodyData_next he
    exact .receives ⟨rfl, rfl, rfl, rfl⟩ (by simp [hst]) (by simp; split <;> simp [hst]) (by simp; split <;> simp [hst])
  | validate hst =>
    obtain ⟨-, rfl⟩ := execValidate_next he
    exact .receives ⟨rfl, rfl, rfl, rfl⟩ (by simp [hst]) (by simp) fun _ => ⟨rfl, rfl, rfl⟩
  | rxAbort hst =>
    cases he
    have hrx : s.rx.state ≠ .rxIdle := fun hidle => by simp [hidle, RxState.samplesAbort] at hst
    exact .ends _ _ (State.busy_of_rx hrx) hquiet (.aborted rfl) rfl
  | acknowledge hst ha =>
    obtain ⟨hready, rfl⟩ | ⟨-, rfl⟩ := execAcknowledge_next he
    · exact .ends _ (s.pushed _) (State.busy_of_rx (by simp [hst])) ⟨rfl, rfl, rfl, rfl⟩ (.acknowledged hst ha hready rfl) rfl
    · exact .stays ⟨rfl, rfl, rfl, rfl, rfl⟩
  | drain _ hst => cases he; exact .sends (s.drained_onlyEdge.withTx _) (by simp [hst]) (by simp)
  | sendFrame _ hst =>
    obtain ⟨b, -, ⟨-, rfl⟩ | ⟨-, rfl⟩⟩ := execSendFrame_next he
    · exact .stays ⟨rfl, rfl, rfl, rfl, rfl⟩
    · refine .sends (frameByteSent_onlySender b s) (by simp [hst]) ?_
      obtain ⟨-, e⟩ | ⟨-, e⟩ := frameByteSent_cases b s <;> simp [e, hst]
  | txAbort _ hst =>
    cases he
    exact .ends _ _ (State.busy_of_tx (by simp [hst])) hquiet (.aborted rfl) rfl
  | waitAckEmptyPoll _ hst =>
    obtain ⟨-, rfl⟩ | ⟨n, -, -, rfl⟩ | ⟨n, -, -, rfl⟩ := execWaitAckEmptyPoll_next he
    · exact .stays s.waitPolled_onlyEdge
    · exact .attemptFailed hst (s.waitPolled_onlyEdge.withTx _)
    · exact .sends (s.waitPolled_onlyEdge.withTx _) (by simp [hst]) (by simp [hst])
  | ackOk _ hst =>
    cases he
    exact .ends _ (s.took _) (State.busy_of_tx (by simp [hst])) ⟨rfl, rfl, rfl, rfl⟩ (.waited hst (.inl rfl)) rfl
  | ackNotOk b _ hst => cases he; exact .attemptFailed hst ⟨rfl, rfl, rfl, rfl⟩

/-- A step without reset is a move, carried past its port sample. -/
theorem step_move (hrst : s.ports.rst = false) (h : step s = .next t) : ∃ u, Move s u ∧ t = u.advance := by
  obtain ⟨hreset, -⟩ | ⟨-, i, u, hs, he, rfl⟩ := step_cases h
  · simp [hrst] at hreset
  · exact ⟨u, hs.move he, rfl⟩

theorem OnlyEdge.busy (h : OnlyEdge s u) : u.busy = s.busy := by
  obtain ⟨-, hrx, htx, -, -⟩ := h
  rw [State.busy, State.busy, hrx, htx]

/-! ### Reset -/

/-- The reset value of every register that has one (10_state.md R46), under the configuration `c`. -/
structure ResetValues (c : Config) (s : State) : Prop where
  config : s.config = c
  rxState : s.rx.state = .rxIdle
  sentCnt : s.rx.sentCnt = 0
  len : s.rx.len = 0
  idx : s.rx.idx = 0
  vlen : s.rx.vlen = 0
  rxCrc : s.rx.crc = c.crcInit
  verdict : s.rx.verdict = .ok
  txState : s.tx.state = .txIdle
  encLen : s.tx.encLen = 0
  pos : s.tx.pos = 0
  attempt : s.tx.attempt = 0
  wait : s.tx.wait = 0
  txCrc : s.tx.crc = c.crcInit
  cmdKind : s.cmdKind = .nop
  done : s.res.done = false
  outcome : s.res.outcome = .ok
  pktValid : s.res.pktValid = false

theorem resetStep_values (s : State) : ResetValues s.config (resetStep s) := by constructor <;> rfl

theorem resetWith_values (c : Config) : ResetValues c (State.resetWith c) := by constructor <;> rfl

/-- The reset values meet the control invariant, whatever the buffers hold. -/
theorem ResetValues.controlInv (h : ResetValues c s) (hwf : c.wf = true) (hbuf : s.rx.buf.length = c.maxBodyLen) :
    ControlInv s := by
  obtain rfl := h.config
  refine controlInv_iff.2 ⟨hwf, ?_, ?_, ?_⟩
  · constructor <;> simp [h.rxState, h.txState]
  · constructor <;> simp [h.rxState, h.sentCnt, h.len, h.idx, hbuf]
  · constructor <;> simp [h.txState, h.encLen, h.pos, h.attempt, h.wait]

/-- Nothing has ended after a reset, so the result port shows nothing. -/
theorem ResetValues.resultInv (h : ResetValues c s) : ResultInv s := by
  have hidle := State.not_busy_iff.2 ⟨h.rxState, h.txState⟩
  constructor <;> simp [hidle, h.rxState, h.done, h.pktValid]

/-- No send runs after a reset. -/
theorem ResetValues.senderInv (h : ResetValues c s) : SenderInv s := by
  constructor <;> simp [h.txState]

/-- Settles O34: the reset step is the one step under `rst`, and no other input decides what it does. -/
theorem resetStepRestoresEveryRegister : Obligations.ResetStepRestoresEveryRegister := by
  intro s hrst
  have h := resetStep_values s
  refine ⟨_, step_of_rst hrst, h.rxState, h.txState, h.sentCnt, h.len, h.idx, h.vlen, h.verdict, h.rxCrc, h.txCrc, h.encLen,
    h.pos, h.attempt, h.wait, h.cmdKind, h.done, h.outcome, h.pktValid, freeBytes_length _ _ _, ?_, fun p rest a hin => ?_⟩
  · simp [StepDrives, resetStep]
  · have hp : p.rst = true := by rwa [State.ports_of_inputs hin] at hrst
    exact step_eq_of_samples { p with abort := a } hin rfl fun hf => by simp [hp] at hf

/-- Settles O35: the values of the state after reset, and the build `State.reset` stands for. -/
theorem stateAfterReset : Obligations.StateAfterReset := by
  refine ⟨fun cfg => ?_, rfl⟩
  have h := resetWith_values cfg
  exact ⟨h.config, State.not_busy_iff.2 ⟨h.rxState, h.txState⟩, h.sentCnt, h.len, h.idx, h.vlen, h.verdict, h.rxCrc, h.txCrc,
    List.length_replicate, h.encLen, h.pos, h.attempt, h.wait, h.cmdKind, h.done, h.outcome, h.pktValid⟩

/-- Settles O36: the reset values meet each of the three invariants. -/
theorem resetMeetsTheInvariants : Obligations.ResetMeetsTheInvariants := fun cfg hwf =>
  have h := resetWith_values cfg
  ⟨h.controlInv hwf List.length_replicate, h.resultInv, h.senderInv⟩

/-! ### The invariants -/

/-- A move keeps at most one machine running, of the command's kind. -/
theorem Move.oneMachine (h : Move s u) (hs : OneMachine s) : OneMachine u := by
  cases h with
  | stays only =>
    obtain ⟨-, hrx, htx, -, hkind⟩ := only
    exact ⟨by rw [hrx, htx]; exact hs.exclusive, by rw [hrx, hkind]; exact hs.rxKind, by rw [htx, hkind]; exact hs.txKind⟩
  | receives only before =>
    obtain ⟨-, htx, -, hkind⟩ := only
    have hidle : u.tx.state = .txIdle := by rw [htx]; exact hs.exclusive.resolve_left before
    exact ⟨.inr hidle, fun _ => hkind.trans (hs.rxKind before), fun h => absurd hidle h⟩
  | sends only before =>
    obtain ⟨-, hrx, -, hkind⟩ := only
    have hidle : u.rx.state = .rxIdle := by rw [hrx]; exact hs.exclusive.resolve_right before
    exact ⟨.inl hidle, fun h => absurd hidle h, fun _ => hkind ▸ hs.txKind before⟩
  | accepts _ _ _ one => exact one
  | ends o v _ _ _ result => subst result; constructor <;> simp

/-- The port sample is no part of the control invariant. -/
theorem ControlInv.advance (h : ControlInv s) : ControlInv s.advance := { h with }

/-- Settles O37: the machines, the receiver's and the sender's ranges are kept each on their own. -/
theorem stepKeepsTheControlInvariant : Obligations.StepKeepsTheControlInvariant := by
  intro s t hinv h
  obtain ⟨hwf, hone, hrx, -⟩ := controlInv_iff.1 hinv
  obtain ⟨-, rfl⟩ | ⟨-, i, u, hs, he, rfl⟩ := step_cases h
  · exact ((resetStep_values s).controlInv hwf ((freeBytes_length _ _ _).trans hrx.bufLength)).advance
  · have hu : ControlInv u := by
      rw [controlInv_iff, exec_config he]
      exact ⟨hwf, (hs.move he).oneMachine hone, hs.receiverRanges he hrx, hs.senderRanges he hinv⟩
    exact hu.advance

/-- The edge is no part of the result invariant. -/
theorem ResultInv.of_onlyEdge (h : ResultInv s) (hu : OnlyEdge s u) : ResultInv u := by
  have hbusy := hu.busy
  obtain ⟨hconfig, hrx, -, hres, hkind⟩ := hu
  constructor
  · rw [hbusy, hres]; exact h.runningNotDone
  · rw [hres, hkind]; exact h.validIff
  · rw [hconfig, hres]; exact h.deliveredChecksum
  · rw [hres, hkind]; exact h.checksumFailedKind
  · rw [hres, hkind]; exact h.sendFailedKind
  · rw [hconfig, hrx]; exact h.validated

theorem ResultInv.advance (h : ResultInv s) : ResultInv s.advance := h.of_onlyEdge ⟨rfl, rfl, rfl, rfl, rfl⟩

/-- While a command runs or is accepted, the port shows neither an end nor a Packet. -/
theorem ResultInv.of_running (hdone : s.res.done = false) (hvalid : s.res.pktValid = false)
    (hval : s.rx.state = .acknowledge → Validated s) : ResultInv s where
  runningNotDone := fun _ => ⟨hdone, hvalid⟩
  validIff := by simp [hdone, hvalid]
  deliveredChecksum := by simp [hvalid]
  checksumFailedKind := by simp [hdone]
  sendFailedKind := by simp [hdone]
  validated := hval

/-- The Packet of an Ok verdict carries its own checksum (43_crc_validator.md R174). -/
theorem Validated.checksum (h : Validated s) (hok : s.rx.verdict = .ok) :
    packetChecksum s.config s.rx.pkt = embeddedChecksum s.rx.pkt := by
  obtain ⟨-, hcrc, hverdict⟩ := h
  rw [hok] at hverdict
  exact hcrc ▸ (verdictOf_eq_ok.1 hverdict.symm).2

theorem verdictOutcome_eq_ok {v : Verdict} : verdictOutcome v = .ok ↔ v = .ok := by cases v <;> decide

/-- Under the kinds of the control invariant, a receive ends Ok only by the verdict of Acknowledge. -/
theorem Ends.receive_ok {o : CmdOutcome} (h : Ends s o) (hone : OneMachine s) (hkind : s.cmdKind = .receivePacket)
    (hok : o = .ok) :
    s.rx.state = .acknowledge ∧ s.rx.verdict = .ok ∧ s.ports.abort = false ∧ s.ports.txReady = true := by
  subst hok
  cases h with
  | aborted outcome => cases outcome
  | acknowledged state noAbort ready outcome => exact ⟨state, verdictOutcome_eq_ok.1 outcome.symm, noAbort, ready⟩
  | waited state =>
    have := hone.txKind (by simp [state])
    simp [hkind] at this

/-- ChecksumFailed ends only a receive, SendFailed only a send (60_exceptions.md R241, R242). -/
theorem Ends.failed_kind {o : CmdOutcome} (h : Ends s o) (hone : OneMachine s) :
    (o = .checksumFailed → s.cmdKind = .receivePacket) ∧
    (o = .sendFailed → s.cmdKind = .sendPacket ∨ s.cmdKind = .sendPacketSingleByte) := by
  cases h with
  | aborted outcome => simp [outcome]
  | acknowledged state _ _ outcome =>
    refine ⟨fun _ => hone.rxKind (by simp [state]), fun hfailed => ?_⟩
    rw [outcome] at hfailed
    cases hv : s.rx.verdict <;> simp [hv, verdictOutcome] at hfailed
  | waited state outcome =>
    refine ⟨fun hfailed => ?_, fun _ => hone.txKind (by simp [state])⟩
    simp [hfailed] at outcome

/-- The end of a command shows what happened. -/
theorem ResultInv.finish {o : CmdOutcome} {v : State} (h : ResultInv s) (hone : OneMachine s) (hv : OnlySender s v)
    (hwhy : Ends s o) : ResultInv (finish o v) := by
  obtain ⟨hconfig, hrx, hres, hkind⟩ := hv
  obtain ⟨hchecksum, hsend⟩ := hwhy.failed_kind hone
  exact {
    runningNotDone := by simp
    validIff := by simp [finish_pktValid]
    deliveredChecksum := by
      rw [finish_pktValid]
      intro hdeliver
      obtain ⟨hst, hok, -, -⟩ := hwhy.receive_ok hone (hkind ▸ hdeliver.1) hdeliver.2
      rw [finish_delivers hdeliver, finish_config, hconfig, hrx]
      exact Validated.checksum (h.validated hst) hok
    checksumFailedKind := by simpa [hkind] using hchecksum
    sendFailedKind := by simpa [hkind] using hsend
    validated := by simp }

/-- A move keeps the result invariant. -/
theorem Move.resultInv (hmove : Move s u) (hone : OneMachine s) (h : ResultInv s) : ResultInv u := by
  cases hmove with
  | stays only => exact h.of_onlyEdge only
  | receives only before _ validated =>
    obtain ⟨hdone, hvalid⟩ := h.runningNotDone (State.busy_of_rx before)
    obtain ⟨-, -, hres, -⟩ := only
    exact .of_running (by rw [hres, hdone]) (by rw [hres, hvalid]) validated
  | sends only before =>
    obtain ⟨hdone, hvalid⟩ := h.runningNotDone (State.busy_of_tx before)
    obtain ⟨-, hrx, hres, -⟩ := only
    refine .of_running (by rw [hres, hdone]) (by rw [hres, hvalid]) fun hst => ?_
    rw [hrx, hone.exclusive.resolve_right before] at hst
    cases hst
  | accepts _ _ _ _ notYet res => exact .of_running (by rw [res]) (by rw [res]) fun hst => absurd hst notYet
  | ends o v _ only why result => exact result ▸ h.finish hone only why

/-- Settles O38: a reset shows nothing, and a move keeps what the result port shows true. -/
theorem stepKeepsTheResultInvariant : Obligations.StepKeepsTheResultInvariant := by
  intro s t hinv h hstep
  obtain ⟨-, hone, -, -⟩ := controlInv_iff.1 hinv
  obtain ⟨-, rfl⟩ | ⟨-, i, u, hs, he, rfl⟩ := step_cases hstep
  · exact (resetStep_values s).resultInv.advance
  · exact ((hs.move he).resultInv hone h).advance

/-! ### The result port -/

/-- Settles O44: of the moves, only the end of a command writes `res_pkt` or `res_outcome`. -/
theorem resultsChangeOnlyWhenACommandEnds : Obligations.ResultsChangeOnlyWhenACommandEnds := by
  intro s t hinv hrst hstep
  obtain ⟨-, hone, -, -⟩ := controlInv_iff.1 hinv
  obtain ⟨u, hmove, rfl⟩ := step_move hrst hstep
  simp only [State.advance_res, State.advance_busy]
  cases hmove with
  | stays only => obtain ⟨-, -, -, hres, -⟩ := only; simp [hres]
  | receives only | sends only => obtain ⟨-, -, hres, -⟩ := only; simp [hres]
  | accepts _ _ _ _ _ res => simp [res]
  | ends o v before only why result =>
    obtain ⟨-, hrx, hres, hkind⟩ := only
    subst result
    refine ⟨fun hpkt => ?_, fun _ => ⟨before, finish_busy o v, finish_done o v⟩⟩
    have hdeliver : v.cmdKind = .receivePacket ∧ o = .ok := by
      by_contra hno
      exact hpkt (by rw [finish_keeps_pkt hno, hres])
    obtain ⟨hst, hok, ha, hready⟩ := why.receive_ok hone (hkind ▸ hdeliver.1) hdeliver.2
    exact ⟨hst, hok, ha, hready, by rw [finish_delivers hdeliver, hrx], (finish_pktValid o v).2 hdeliver,
      (finish_outcome o v).trans hdeliver.2⟩

/-- Settles O45: busy rises and the flags fall at an acceptance, busy falls and the flags rise at an end. -/
theorem resultFlagsFollowTheCommands : Obligations.ResultFlagsFollowTheCommands := by
  intro s t hrst hstep
  obtain ⟨u, hmove, rfl⟩ := step_move hrst hstep
  simp only [State.advance_res, State.advance_busy]
  cases hmove with
  | stays only =>
    have hbusy := only.busy
    obtain ⟨-, -, -, hres, -⟩ := only
    simp +contextual [hbusy, hres]
  | receives only before after =>
    obtain ⟨-, -, hres, -⟩ := only
    simp +contextual [State.busy_of_rx before, State.busy_of_rx after, hres]
  | sends only before after =>
    obtain ⟨-, -, hres, -⟩ := only
    simp +contextual [State.busy_of_tx before, State.busy_of_tx after, hres]
  | accepts command before after _ _ res => simpa [before, after, res] using command
  | ends o v before only why result =>
    obtain ⟨-, -, -, hkind⟩ := only
    subst result
    refine ⟨by simp [before], by simp, by simp [before], by simp, fun _ hvalid => ?_, fun hinv hvalid => ?_⟩
    · obtain ⟨hreceive, hok⟩ := (finish_pktValid o v).1 hvalid
      exact ⟨before, finish_busy o v, hkind ▸ hreceive, (finish_outcome o v).trans hok⟩
    · simp [(hinv.runningNotDone before).2] at hvalid

end Sys2Proof.Machine
end

section
/-! PROOFS. Family 20_memory.md: an access to a buffer or frame element that does not exist is the one reason an instruction
stops (R61, log 9), and the control invariant rules each such access out. -/

namespace Sys2Proof.Machine

open Sys2Proof

variable {s : State} {i : Instr} {r : Fault}

/-! ### The access that stops an instruction -/

/-- Run in `s`, the instruction would access an element of `rx_buf` or of the frame that does not exist (20_memory.md R61);
the fault names which. -/
inductive MissingElement (s : State) : Instr → Fault → Prop where
  | store (b : Byte) (missing : s.rx.buf.length ≤ s.rx.idx) : MissingElement s (.bodyData b) .rxBufIndex
  | body (missing : s.rx.buf.length < s.rx.len.toNat) : MissingElement s .validate .rxBufIndex
  | frame (missing : s.tx.encLen.val + 3 ≤ s.tx.pos.toNat) : MissingElement s .sendFrame .frameIndex

/-- Such an access faults. -/
theorem MissingElement.faults (h : MissingElement s i r) : exec i s = .fault r := by
  cases h with
  | store b missing => simp [exec, execBodyData, State.storeBody, missing.not_gt]
  | body missing => simp [exec, execValidate, State.rxBody, missing.not_ge]
  | frame missing => simp [exec, execSendFrame, missing]

/-- Every instruction answers a next state, but for such an access. -/
theorem exec_next_or_missing (i : Instr) (s : State) : (∃ u, exec i s = .next u) ∨ ∃ r, MissingElement s i r := by
  cases i with
  | nop | receivePacket | sendPacket | sendPacketSingleByte => exact .inl ⟨_, rfl⟩
  | seekOther | lenSentinel | lenAccept | lenOversize | bodySentinel => exact .inl ⟨_, rfl⟩
  | rxAbort | rxEmptyPoll | acknowledge | drain | txAbort | ackOk | ackNotOk => exact .inl ⟨_, rfl⟩
  | ackoutOk | ackoutCrcFail | outOk | outReset | outChecksumFailed | outSendFailed => exact .inl ⟨_, rfl⟩
  | seekSentinel =>
    simp only [exec, execSeekSentinel]
    split <;> exact .inl ⟨_, rfl⟩
  | waitAckEmptyPoll =>
    simp only [exec, execWaitAckEmptyPoll]
    split
    · exact .inl ⟨_, rfl⟩
    · split <;> exact .inl ⟨_, rfl⟩
  | bodyData b =>
    refine (lt_or_ge s.rx.idx s.rx.buf.length).imp (fun hlt => ?_) fun hmissing => ⟨_, .store b hmissing⟩
    simp [exec, execBodyData, State.storeBody_eq_some hlt]
  | validate =>
    refine (le_or_gt s.rx.len.toNat s.rx.buf.length).imp (fun hle => ?_) fun hmissing => ⟨_, .body hmissing⟩
    simp [exec, execValidate, State.rxBody_eq_some hle]
  | sendFrame =>
    refine (lt_or_ge s.tx.pos.toNat (s.tx.encLen.val + 3)).imp (fun hlt => ?_) fun hmissing => ⟨_, .frame hmissing⟩
    rw [← s.frame_length] at hlt
    simp only [exec, execSendFrame, List.getElem?_eq_getElem hlt]
    split <;> exact ⟨_, rfl⟩

/-- The faults are exactly these accesses. -/
theorem exec_fault_iff : exec i s = .fault r ↔ MissingElement s i r := by
  refine ⟨fun hfault => ?_, MissingElement.faults⟩
  obtain ⟨u, hu⟩ | ⟨r', hmissing⟩ := exec_next_or_missing i s
  · simp [hu] at hfault
  · cases hmissing.faults.symm.trans hfault
    exact hmissing

/-! ### The invariant rules it out -/

/-- Under the control invariant the selected instruction finds each element it accesses: each bound is the one that holds in
the state that selects it (41_receiver_framer.md R137, 10_state.md R26, 44_sender_framer.md R197). -/
theorem Selects.not_missing (hs : Selects s i) (hinv : ControlInv s) : ¬ MissingElement s i r := by
  intro hmissing
  have hlen : s.rx.len.toNat ≤ s.rx.buf.length := hinv.bufLength ▸ hinv.lenBound
  cases hmissing with
  | store b missing =>
    cases hs with
    | bodyData _ hst => exact absurd ((hinv.bodyOpen hst).trans_le hlen) missing.not_gt
  | body missing => exact absurd hlen missing.not_ge
  | frame missing =>
    cases hs with
    | sendFrame _ hst => exact absurd (hinv.posOpen hst) missing.not_gt

/-- Settles O40: the reset step never stops, and the selected instruction finds the elements it accesses. -/
theorem noStepStopsUnderTheInvariant : Obligations.NoStepStopsUnderTheInvariant := by
  intro s hinv
  cases hrst : s.ports.rst with
  | true => exact ⟨_, step_of_rst hrst⟩
  | false =>
    obtain ⟨i, hd, hs⟩ := fetch_selects s
    obtain ⟨u, hu⟩ | ⟨r, hmissing⟩ := exec_next_or_missing i s
    · exact ⟨_, step_next hrst hd hu⟩
    · exact absurd hmissing (hs.not_missing hinv)

/-- Settles O41: each clause reads its instruction's case off `exec_fault_iff`. -/
theorem onlyMissingElementsFault : Obligations.OnlyMissingElementsFault := by
  intro s
  simp only [exec_fault_iff]
  refine ⟨fun b => ⟨fun | .store _ h => h, .store b⟩, ⟨fun | .body h => h, .body⟩, ⟨fun | .frame h => h, .frame⟩, ?_⟩
  intro i r hmissing
  cases hmissing with
  | store b => exact .inr (.inr ⟨b, rfl⟩)
  | body => exact .inl rfl
  | frame => exact .inr (.inl rfl)

end Sys2Proof.Machine
end

section
/-! PROOFS. Family 30_encoding.md, the decoder: it inverts the encoder (R95 to R99), it classifies every byte by the tables of R98
and R99, and it is the opcode table read by match, mask, condition and priority (R107). -/

namespace Sys2Proof

open Sys2Proof.Machine

variable {cfg : Config} {c : Conditions} {f : Fetched} {i j : Instr} {b : Byte}

/-! ### Decoding inverts encoding -/

/-- Decoding inverts encoding, by the family RoundTrip: one lemma per instruction. -/
theorem decode_encode (i : Instr) : Laws.RoundTrip.Statement i :=
  match i with
  | .nop => Laws.RoundTrip.nop
  | .receivePacket => Laws.RoundTrip.receivePacket
  | .sendPacket dest msgType payload => Laws.RoundTrip.sendPacket dest msgType payload
  | .sendPacketSingleByte msgType value => Laws.RoundTrip.sendPacketSingleByte msgType value
  | .seekSentinel => Laws.RoundTrip.seekSentinel
  | .seekOther b => Laws.RoundTrip.seekOther b
  | .lenSentinel => Laws.RoundTrip.lenSentinel
  | .lenAccept b => Laws.RoundTrip.lenAccept b
  | .lenOversize b => Laws.RoundTrip.lenOversize b
  | .bodySentinel => Laws.RoundTrip.bodySentinel
  | .bodyData b => Laws.RoundTrip.bodyData b
  | .rxAbort st => Laws.RoundTrip.rxAbort st
  | .rxEmptyPoll st => Laws.RoundTrip.rxEmptyPoll st
  | .validate => Laws.RoundTrip.validate
  | .acknowledge => Laws.RoundTrip.acknowledge
  | .drain => Laws.RoundTrip.drain
  | .sendFrame => Laws.RoundTrip.sendFrame
  | .txAbort => Laws.RoundTrip.txAbort
  | .waitAckEmptyPoll => Laws.RoundTrip.waitAckEmptyPoll
  | .ackOk => Laws.RoundTrip.ackOk
  | .ackNotOk b => Laws.RoundTrip.ackNotOk b
  | .ackoutOk => Laws.RoundTrip.ackoutOk
  | .ackoutCrcFail => Laws.RoundTrip.ackoutCrcFail
  | .outOk => Laws.RoundTrip.outOk
  | .outReset => Laws.RoundTrip.outReset
  | .outChecksumFailed => Laws.RoundTrip.outChecksumFailed
  | .outSendFailed => Laws.RoundTrip.outSendFailed

/-- Settles O2, by the round trip of the one instruction. -/
theorem decodeEncodeAgree : Obligations.DecodeEncodeAgree := fun cfg i hwf => decode_encode i cfg hwf

/-! ### The class of a byte -/

@[simp] theorem decode_rxByte (st : RxState) : decode cfg ⟨.rxByte (st.code ++ b), c⟩ = classifyRx cfg st b :=
  decodeRxByte_append cfg st b

@[simp] theorem decode_txByte (st : TxState) : decode cfg ⟨.txByte (st.code ++ b), c⟩ = classifyTx cfg st b :=
  decodeTxByte_append cfg st b

@[simp] theorem classifyRx_seek_sentinel : classifyRx cfg .seekSentinel sentinel = .ok .seekSentinel := rfl

theorem classifyRx_seek_other (hb : b ≠ sentinel) : classifyRx cfg .seekSentinel b = .ok (.seekOther b) := by
  simp [classifyRx, hb]

@[simp] theorem classifyRx_length_sentinel : classifyRx cfg .readLength sentinel = .ok .lenSentinel := rfl

theorem classifyRx_length_within (hb : b ≠ sentinel) (hle : b.toNat ≤ cfg.maxBodyLen) :
    classifyRx cfg .readLength b = .ok (.lenAccept b) := by
  simp [classifyRx, hb, hle]

theorem classifyRx_length_above (hb : b ≠ sentinel) (hlt : cfg.maxBodyLen < b.toNat) :
    classifyRx cfg .readLength b = .ok (.lenOversize b) := by
  simp [classifyRx, hb, hlt.not_ge]

@[simp] theorem classifyRx_body_sentinel : classifyRx cfg .readBody sentinel = .ok .bodySentinel := rfl

theorem classifyRx_body_data (hb : b ≠ sentinel) : classifyRx cfg .readBody b = .ok (.bodyData b) := by
  simp [classifyRx, hb]

@[simp] theorem classifyTx_ackOk : classifyTx cfg .waitAck cfg.ackOk = .ok .ackOk := by simp [classifyTx]

theorem classifyTx_ackNotOk (hb : b ≠ cfg.ackOk) : classifyTx cfg .waitAck b = .ok (.ackNotOk b) := by
  simp [classifyTx, hb]

/-- A length within the bound of an allowed configuration is no sentinel (00_scope.md R7). -/
theorem ne_sentinel_of_le_maxBodyLen (hcfg : cfg.wf = true) (hle : b.toNat ≤ cfg.maxBodyLen) : b ≠ sentinel := by
  rintro rfl
  obtain ⟨-, hmax, -⟩ := wf_facts hcfg
  exact absurd (hle.trans hmax) (by decide)

/-- Settles O4: each clause is the class of its state and byte. -/
theorem receiverClassifiesEveryByte : Obligations.ReceiverClassifiesEveryByte := by
  intro cfg c b hcfg
  simp only [decode_rxByte]
  refine ⟨?_, classifyRx_seek_other, ?_, fun ⟨hlt, hb⟩ => classifyRx_length_above hb hlt, fun hle => ?_, ?_,
    classifyRx_body_data, ?_⟩
  · rintro rfl
    exact classifyRx_seek_sentinel
  · rintro rfl
    exact classifyRx_length_sentinel
  · exact classifyRx_length_within (ne_sentinel_of_le_maxBodyLen hcfg hle) hle
  · rintro rfl
    exact classifyRx_body_sentinel
  · rintro st (rfl | rfl | rfl) <;> rfl

/-- Drain's one `TryRecv` with a byte at hand (44_sender_framer.md R195). -/
theorem drained_of_rxAvail {s : State} (h : s.ports.rxAvail = true) : s.drained = s.took s.ports.rxData := by
  simp [State.drained, State.tryRecv, h]

/-- Drain's one `TryRecv` without a byte (44_sender_framer.md R195). -/
theorem drained_of_not_rxAvail {s : State} (h : s.ports.rxAvail = false) : s.drained = s.quiet := by
  simp [State.drained, State.tryRecv, h]

/-- Settles O5: WaitAck by the two classes of its byte; Drain by the one instruction its state selects. -/
theorem senderClassifiesTheAcknowledgement : Obligations.SenderClassifiesTheAcknowledgement := by
  intro cfg c b
  simp only [decode_txByte]
  refine ⟨?_, classifyTx_ackNotOk, classifyTx_ackNotOk, rfl, fun s hrx htx hrst => ?_⟩
  · rintro rfl
    exact classifyTx_ackOk
  · have hdecode := decode_fetch_drain hrx htx
    obtain ⟨hconfig, hdrx, -, hres, hkind⟩ := s.drained_onlyEdge
    refine ⟨hdecode, _, step_next hrst hdecode rfl, ⟨hconfig, hdrx, hres, hkind⟩, rfl, fun hav => ?_, fun hav => ?_⟩
    · simp [StepDrives, drained_of_rxAvail hav, Outputs.pop, Outputs.low]
    · simp [StepDrives, drained_of_not_rxAvail hav]

/-- Settles O1: the decoder evaluated on each word. -/
theorem tableWordsDecode : Obligations.TableWordsDecode := by
  refine ⟨?_, ?_, ?_, ?_, ?_, ?_, ?_, ?_, ?_⟩ <;> decide

/-! ### Words under a mask -/

/-- A byte word, read as a number. -/
theorem toNat_append_byte {n : Nat} (st : BitVec n) (b : Byte) : (st ++ b).toNat = st.toNat <<< 8 + b.toNat := by
  rw [BitVec.toNat_append, Nat.shiftLeft_add_eq_or_of_lt b.isLt]

theorem toNat_append_mod {n : Nat} (st : BitVec n) (b : Byte) : (st ++ b).toNat % 256 = b.toNat := by
  rw [toNat_append_byte, Nat.shiftLeft_eq]
  omega

@[simp] theorem bits_rxByte_mod (st : BitVec 3) : (OpWord.rxByte (st ++ b)).bits % 256 = b.toNat := toNat_append_mod st b

@[simp] theorem bits_txByte_mod (st : BitVec 2) : (OpWord.txByte (st ++ b)).bits % 256 = b.toNat := toNat_append_mod st b

/-- The mask of all bits leaves a word as it is. -/
theorem toNat_and_full_mask {n : Nat} (w : BitVec n) : w.toNat &&& 2 ^ n - 1 = w.toNat :=
  Nat.and_two_pow_sub_one_of_lt_two_pow w.isLt

/-- The mask of the state bits leaves the state of a byte word. -/
theorem toNat_and_state_mask {n : Nat} (w : BitVec (n + 8)) :
    w.toNat &&& (2 ^ n - 1) <<< 8 = (w.extractLsb' 8 n).toNat <<< 8 := by
  apply Nat.eq_of_testBit_eq
  intro i
  by_cases hi : 8 ≤ i
  · simp [hi, Nat.testBit_shiftLeft, Bool.and_comm]
  · simp [hi, Nat.testBit_shiftLeft]

theorem append_and_state_mask {n : Nat} (st : BitVec n) (b : Byte) :
    (st ++ b).toNat &&& (2 ^ n - 1) <<< 8 = st.toNat <<< 8 := by
  rw [toNat_and_state_mask, extract_state]

theorem eq_of_full_mask {n : Nat} {w v : BitVec n} (h : w.toNat &&& 2 ^ n - 1 = v.toNat) : w = v :=
  BitVec.eq_of_toNat_eq ((toNat_and_full_mask w).symm.trans h)

theorem eq_append_of_state_mask {n : Nat} {w : BitVec (n + 8)} {st : BitVec n}
    (h : w.toNat &&& (2 ^ n - 1) <<< 8 = st.toNat <<< 8) : ∃ b : Byte, w = st ++ b := by
  have hst : w.extractLsb' 8 n = st := by
    rw [toNat_and_state_mask] at h
    exact BitVec.eq_of_toNat_eq (by simpa [Nat.shiftLeft_eq] using h)
  exact ⟨w.extractLsb' 0 8, by rw [← hst, append_extract]⟩

theorem ne_sentinel_iff : b ≠ sentinel ↔ b.toNat ≠ 255 := by
  rw [Ne, ← BitVec.toNat_inj]; rfl

theorem ne_ackOk_iff : b ≠ cfg.ackOk ↔ b.toNat ≠ cfg.ackOk.toNat := by rw [Ne, ← BitVec.toNat_inj]

/-- A row matches by format, by its bits under the mask, and by its condition (R107). -/
theorem rowMatches_iff : i.rowMatches cfg f = true ↔
    f.word.format = (i.row cfg).format ∧ f.word.bits &&& (i.row cfg).mask = (i.row cfg).pattern ∧
    i.rowCondition cfg f = true := by
  simp [Instr.rowMatches, and_assoc]

/-! ### What is decoded is the row it was decoded from -/

/-- The encoder writes a word of the instruction's own row. -/
theorem encode_format_and_bits (cfg : Config) (i : Instr) :
    (encode cfg i).word.format = (i.row cfg).format ∧
    (encode cfg i).word.bits &&& (i.row cfg).mask = (i.row cfg).pattern := by
  refine ⟨by cases i <;> rfl, ?_⟩
  cases i with
  | seekOther b | lenAccept b | lenOversize b | bodyData b => exact append_and_state_mask (n := 3) _ b
  | ackNotOk b => exact append_and_state_mask (n := 2) _ b
  | ackOk => exact (toNat_and_full_mask _).trans (toNat_append_byte _ _)
  | rxAbort | rxEmptyPoll => exact Nat.and_zero _
  | _ => exact toNat_and_full_mask _

/-- `f` stands for `i`: operands the row allows, the encoder's word, and the row's condition. -/
structure StandsFor (cfg : Config) (f : Fetched) (i : Instr) : Prop where
  wf : i.wf cfg = true
  word : (encode cfg i).word = f.word
  condition : i.rowCondition cfg f = true

theorem StandsFor.rowMatches (h : StandsFor cfg f i) : i.rowMatches cfg f = true := by
  obtain ⟨hformat, hbits⟩ := encode_format_and_bits cfg i
  rw [h.word] at hformat hbits
  exact rowMatches_iff.2 ⟨hformat, hbits, h.condition⟩

theorem decodeCmd_standsFor (w : BitVec 2) : StandsFor cfg ⟨.cmd w, c⟩ (decodeCmd w c.operands) := by
  rw [← Command.code_ofCode w]
  cases Command.ofCode w <;> exact ⟨rfl, rfl, rfl⟩

theorem decodeOutcome_standsFor (w : BitVec 2) : StandsFor cfg ⟨.outcome w, c⟩ (decodeOutcome w) := by
  rw [← CmdOutcome.code_ofCode w]
  cases CmdOutcome.ofCode w <;> exact ⟨rfl, rfl, rfl⟩

theorem classifyRx_standsFor {st : RxState} (h : classifyRx cfg st b = .ok i) :
    StandsFor cfg ⟨.rxByte (st.code ++ b), c⟩ i := by
  by_cases hb : b = sentinel
  · subst hb
    cases st <;> cases h <;> exact ⟨rfl, rfl, rfl⟩
  have hnat := ne_sentinel_iff.1 hb
  cases st with
  | seekSentinel =>
    rw [classifyRx_seek_other hb] at h
    cases h
    exact ⟨by simp [Instr.wf, hb], rfl, by simp [Instr.rowCondition, hnat]⟩
  | readLength =>
    obtain hle | hlt := le_or_gt b.toNat cfg.maxBodyLen
    · rw [classifyRx_length_within hb hle] at h
      cases h
      exact ⟨by simp [Instr.wf, hb, hle], rfl, by simp [Instr.rowCondition, hle]⟩
    · rw [classifyRx_length_above hb hlt] at h
      cases h
      have hmax : b.toNat < 255 := by omega
      exact ⟨by simp [Instr.wf, hb, hlt], rfl, by simp [Instr.rowCondition, hlt, hmax]⟩
  | readBody =>
    rw [classifyRx_body_data hb] at h
    cases h
    exact ⟨by simp [Instr.wf, hb], rfl, by simp [Instr.rowCondition, hnat]⟩
  | rxIdle | validate | acknowledge => cases h

theorem classifyTx_standsFor {st : TxState} (h : classifyTx cfg st b = .ok i) :
    StandsFor cfg ⟨.txByte (st.code ++ b), c⟩ i := by
  cases st with
  | waitAck =>
    by_cases hb : b = cfg.ackOk
    · subst hb
      rw [classifyTx_ackOk] at h
      cases h
      exact ⟨rfl, rfl, by simp [Instr.rowCondition]⟩
    · rw [classifyTx_ackNotOk hb] at h
      cases h
      exact ⟨by simp [Instr.wf, hb], rfl, by simp [Instr.rowCondition, ne_ackOk_iff.1 hb]⟩
  | txIdle | drain | sendFrame => cases h

theorem classifyRxStep_standsFor {st : RxState} (h : classifyRxStep st c = .ok i) :
    StandsFor cfg ⟨.rxStep st.code, c⟩ i := by
  cases st with
  | rxIdle => cases h
  | validate => cases h; exact ⟨rfl, rfl, rfl⟩
  | acknowledge =>
    simp only [classifyRxStep] at h
    split at h <;> cases h
    · next ha => exact ⟨rfl, rfl, ha⟩
    · next ha => exact ⟨rfl, rfl, by simpa [Instr.rowCondition] using ha⟩
  | seekSentinel | readLength | readBody =>
    simp only [classifyRxStep] at h
    split at h
    · next ha =>
      cases h
      exact ⟨rfl, rfl, ha⟩
    · split at h <;> cases h
      next hn => exact ⟨rfl, rfl, hn⟩

theorem classifyTxStep_standsFor {st : TxState} (h : classifyTxStep st c = .ok i) :
    StandsFor cfg ⟨.txStep st.code, c⟩ i := by
  cases st with
  | txIdle => cases h
  | drain | sendFrame => cases h; exact ⟨rfl, rfl, rfl⟩
  | waitAck =>
    simp only [classifyTxStep] at h
    split at h
    · next ha =>
      cases h
      exact ⟨rfl, rfl, ha⟩
    · next ha =>
      split at h <;> cases h
      next hn => exact ⟨rfl, rfl, by simp [Instr.rowCondition, ha, hn]⟩

theorem decodeAckOut_standsFor (h : decodeAckOut cfg b c.verdict = .ok i) : StandsFor cfg ⟨.ackOut b, c⟩ i := by
  cases hv : c.verdict with
  | ok =>
    rw [hv, decodeAckOut] at h
    split at h <;> cases h
    next hb => exact ⟨rfl, hb ▸ rfl, decide_eq_true hv⟩
  | checksumFailed =>
    rw [hv, decodeAckOut] at h
    split at h <;> cases h
    next hb => exact ⟨rfl, hb ▸ rfl, decide_eq_true hv⟩

/-- What the decoder answers is what the fetched word stands for, format by format. -/
theorem standsFor_of_decode (h : decode cfg f = .ok i) : StandsFor cfg f i := by
  obtain ⟨word, c⟩ := f
  cases word with
  | cmd w => cases h; exact decodeCmd_standsFor w
  | outcome w => cases h; exact decodeOutcome_standsFor w
  | ackOut w => exact decodeAckOut_standsFor h
  | txStep w =>
    rw [← TxState.code_ofCode w]
    exact classifyTxStep_standsFor h
  | txByte w =>
    rw [← append_extract (n := 2) w, ← TxState.code_ofCode (w.extractLsb' 8 2)]
    exact classifyTx_standsFor h
  | rxStep w =>
    simp only [decode, decodeRxStep] at h
    split at h
    · cases h
    · next st hst =>
      rw [RxState.code_of_ofCode hst]
      exact classifyRxStep_standsFor h
  | rxByte w =>
    simp only [decode, decodeRxByte] at h
    split at h
    · cases h
    · next st hst =>
      rw [← append_extract (n := 3) w, RxState.code_of_ofCode hst]
      exact classifyRx_standsFor h

/-! ### A row that matches is decoded, by the matching row of least priority -/

/-- The decoder answers an instruction whose row has at most the priority `p`. -/
def AnswersWithin (cfg : Config) (f : Fetched) (p : Nat) : Prop := ∃ i, decode cfg f = .ok i ∧ (i.row cfg).priority ≤ p

theorem decodeCmd_priority (w : BitVec 2) (ops : CmdOperands) : ((decodeCmd w ops).row cfg).priority = 0 := by
  unfold decodeCmd
  split <;> rfl

theorem decodeOutcome_priority (w : BitVec 2) : ((decodeOutcome w).row cfg).priority = 0 := by
  unfold decodeOutcome
  split <;> rfl

/-- A word among listed codes, none of them reserved, is the code of a receiver state (10_state.md R24). -/
theorem exists_eq_code {w : BitVec 3} {codes : List Nat} (hcodes : ∀ n ∈ codes, n ≤ 5) (h : codes.contains w.toNat = true) :
    ∃ st : RxState, w = st.code := by
  have hle : w.toNat ≤ 5 := hcodes _ (List.contains_iff_mem.1 h)
  cases hst : RxState.ofCode w with
  | some st => exact ⟨st, RxState.code_of_ofCode hst⟩
  | none =>
    have hreserved : ∀ v : BitVec 3, RxState.ofCode v = none → 5 < v.toNat := by decide
    exact absurd hle (hreserved w hst).not_ge

/-- The states RX.ABORT lists are those that sample the abort. -/
theorem samplesAbort_eq_listed (st : RxState) : st.samplesAbort = [1, 2, 3, 5].contains st.code.toNat := by cases st <;> rfl

/-- The states RX.EMPTY_POLL lists are those that poll. -/
theorem pollsByte_eq_listed (st : RxState) : st.pollsByte = [1, 2, 3].contains st.code.toNat := by cases st <;> rfl

theorem samplesAbort_of_pollsByte {st : RxState} (h : st.pollsByte = true) : st.samplesAbort = true := by
  cases st with
  | seekSentinel | readLength | readBody => rfl
  | rxIdle | validate | acknowledge => cases h

@[simp] theorem decode_rxStep (st : RxState) : decode cfg ⟨.rxStep st.code, c⟩ = classifyRxStep st c := decodeRxStep_code st c

@[simp] theorem decode_txStep (st : TxState) : decode cfg ⟨.txStep st.code, c⟩ = classifyTxStep st c := by simp [decode]

theorem classifyRxStep_abort {st : RxState} (hst : st.samplesAbort = true) (ha : c.abort = true) :
    classifyRxStep st c = .ok (.rxAbort st) := by
  cases st <;> simp_all [classifyRxStep, RxState.samplesAbort]

theorem classifyRxStep_emptyPoll {st : RxState} (hst : st.pollsByte = true) (ha : c.abort = false) (hn : c.noByte = true) :
    classifyRxStep st c = .ok (.rxEmptyPoll st) := by
  cases st <;> simp_all [classifyRxStep, RxState.pollsByte]

theorem rxByte_answersWithin {w : BitVec 11} (h : j.rowMatches cfg ⟨.rxByte w, c⟩ = true) :
    AnswersWithin cfg ⟨.rxByte w, c⟩ (j.row cfg).priority := by
  obtain ⟨hformat, hbits, hcond⟩ := rowMatches_iff.1 h
  cases j with
  | seekSentinel =>
    obtain rfl : w = RxState.seekSentinel.code ++ sentinel := eq_of_full_mask hbits
    exact ⟨.seekSentinel, rfl, le_rfl⟩
  | lenSentinel =>
    obtain rfl : w = RxState.readLength.code ++ sentinel := eq_of_full_mask hbits
    exact ⟨.lenSentinel, rfl, le_rfl⟩
  | bodySentinel =>
    obtain rfl : w = RxState.readBody.code ++ sentinel := eq_of_full_mask hbits
    exact ⟨.bodySentinel, rfl, le_rfl⟩
  | seekOther =>
    obtain ⟨b, rfl⟩ : ∃ b : Byte, w = RxState.seekSentinel.code ++ b := eq_append_of_state_mask hbits
    have hb : b ≠ sentinel := ne_sentinel_iff.2 (by simpa [Instr.rowCondition] using hcond)
    exact ⟨.seekOther b, by rw [decode_rxByte, classifyRx_seek_other hb], le_rfl⟩
  | lenAccept =>
    obtain ⟨b, rfl⟩ : ∃ b : Byte, w = RxState.readLength.code ++ b := eq_append_of_state_mask hbits
    have hle : b.toNat ≤ cfg.maxBodyLen := by simpa [Instr.rowCondition] using hcond
    by_cases hb : b = sentinel
    · subst hb
      exact ⟨.lenSentinel, by simp, Nat.zero_le _⟩
    · exact ⟨.lenAccept b, by rw [decode_rxByte, classifyRx_length_within hb hle], le_rfl⟩
  | lenOversize =>
    obtain ⟨b, rfl⟩ : ∃ b : Byte, w = RxState.readLength.code ++ b := eq_append_of_state_mask hbits
    obtain ⟨hlt, hne⟩ : cfg.maxBodyLen < b.toNat ∧ b.toNat < 255 := by simpa [Instr.rowCondition] using hcond
    exact ⟨.lenOversize b, by rw [decode_rxByte, classifyRx_length_above (ne_sentinel_iff.2 hne.ne) hlt], le_rfl⟩
  | bodyData =>
    obtain ⟨b, rfl⟩ : ∃ b : Byte, w = RxState.readBody.code ++ b := eq_append_of_state_mask hbits
    have hb : b ≠ sentinel := ne_sentinel_iff.2 (by simpa [Instr.rowCondition] using hcond)
    exact ⟨.bodyData b, by rw [decode_rxByte, classifyRx_body_data hb], le_rfl⟩
  | _ => cases hformat

theorem rxStep_answersWithin {w : BitVec 3} (h : j.rowMatches cfg ⟨.rxStep w, c⟩ = true) :
    AnswersWithin cfg ⟨.rxStep w, c⟩ (j.row cfg).priority := by
  obtain ⟨hformat, hbits, hcond⟩ := rowMatches_iff.1 h
  cases j with
  | rxAbort =>
    obtain ⟨hlisted, ha⟩ := Bool.and_eq_true_iff.1 hcond
    obtain ⟨st, rfl⟩ := exists_eq_code (codes := [1, 2, 3, 5]) (by decide) hlisted
    have hst : st.samplesAbort = true := (samplesAbort_eq_listed st).trans hlisted
    exact ⟨.rxAbort st, by rw [decode_rxStep, classifyRxStep_abort hst ha], le_rfl⟩
  | rxEmptyPoll =>
    obtain ⟨hlisted, hn⟩ := Bool.and_eq_true_iff.1 hcond
    obtain ⟨st, rfl⟩ := exists_eq_code (codes := [1, 2, 3]) (by decide) hlisted
    have hst : st.pollsByte = true := (pollsByte_eq_listed st).trans hlisted
    cases ha : c.abort with
    | true =>
      exact ⟨.rxAbort st, by rw [decode_rxStep, classifyRxStep_abort (samplesAbort_of_pollsByte hst) ha], Nat.zero_le _⟩
    | false => exact ⟨.rxEmptyPoll st, by rw [decode_rxStep, classifyRxStep_emptyPoll hst ha hn], le_rfl⟩
  | validate =>
    obtain rfl : w = RxState.validate.code := eq_of_full_mask hbits
    exact ⟨.validate, rfl, le_rfl⟩
  | acknowledge =>
    obtain rfl : w = RxState.acknowledge.code := eq_of_full_mask hbits
    have ha : c.abort = false := by simpa [Instr.rowCondition] using hcond
    exact ⟨.acknowledge, by simp [classifyRxStep, ha], le_rfl⟩
  | _ => cases hformat

theorem txStep_answersWithin {w : BitVec 2} (h : j.rowMatches cfg ⟨.txStep w, c⟩ = true) :
    AnswersWithin cfg ⟨.txStep w, c⟩ (j.row cfg).priority := by
  obtain ⟨hformat, hbits, hcond⟩ := rowMatches_iff.1 h
  cases j with
  | drain =>
    obtain rfl : w = TxState.drain.code := eq_of_full_mask hbits
    exact ⟨.drain, rfl, le_rfl⟩
  | sendFrame =>
    obtain rfl : w = TxState.sendFrame.code := eq_of_full_mask hbits
    exact ⟨.sendFrame, rfl, le_rfl⟩
  | txAbort =>
    obtain rfl : w = TxState.waitAck.code := eq_of_full_mask hbits
    have ha : c.abort = true := hcond
    exact ⟨.txAbort, by simp [classifyTxStep, ha], le_rfl⟩
  | waitAckEmptyPoll =>
    obtain rfl : w = TxState.waitAck.code := eq_of_full_mask hbits
    obtain ⟨ha, hn⟩ : c.abort = false ∧ c.noByte = true := by simpa [Instr.rowCondition] using hcond
    exact ⟨.waitAckEmptyPoll, by simp [classifyTxStep, ha, hn], le_rfl⟩
  | _ => cases hformat

theorem txByte_answersWithin {w : BitVec 10} (h : j.rowMatches cfg ⟨.txByte w, c⟩ = true) :
    AnswersWithin cfg ⟨.txByte w, c⟩ (j.row cfg).priority := by
  obtain ⟨hformat, hbits, hcond⟩ := rowMatches_iff.1 h
  cases j with
  | ackOk =>
    have hpattern := toNat_append_byte TxState.waitAck.code cfg.ackOk
    obtain rfl : w = TxState.waitAck.code ++ cfg.ackOk := eq_of_full_mask (hbits.trans hpattern.symm)
    exact ⟨.ackOk, by simp, le_rfl⟩
  | ackNotOk =>
    obtain ⟨b, rfl⟩ : ∃ b : Byte, w = TxState.waitAck.code ++ b := eq_append_of_state_mask hbits
    have hb : b ≠ cfg.ackOk := ne_ackOk_iff.2 (by simpa [Instr.rowCondition] using hcond)
    exact ⟨.ackNotOk b, by rw [decode_txByte, classifyTx_ackNotOk hb], le_rfl⟩
  | _ => cases hformat

theorem ackOut_answersWithin (h : j.rowMatches cfg ⟨.ackOut b, c⟩ = true) :
    AnswersWithin cfg ⟨.ackOut b, c⟩ (j.row cfg).priority := by
  obtain ⟨hformat, hbits, hcond⟩ := rowMatches_iff.1 h
  cases j with
  | ackoutOk =>
    obtain rfl : b = cfg.ackOk := eq_of_full_mask hbits
    have hv : c.verdict = .ok := of_decide_eq_true hcond
    exact ⟨.ackoutOk, by simp [decode, decodeAckOut, hv], le_rfl⟩
  | ackoutCrcFail =>
    obtain rfl : b = cfg.ackCrcFail := eq_of_full_mask hbits
    have hv : c.verdict = .checksumFailed := of_decide_eq_true hcond
    exact ⟨.ackoutCrcFail, by simp [decode, decodeAckOut, hv], le_rfl⟩
  | _ => cases hformat

/-- A word that some row matches is decoded, by a row of at most that row's priority. -/
theorem answersWithin_of_rowMatches (h : j.rowMatches cfg f = true) : AnswersWithin cfg f (j.row cfg).priority := by
  obtain ⟨word, c⟩ := f
  cases word with
  | cmd w => exact ⟨_, rfl, (decodeCmd_priority w c.operands).trans_le (Nat.zero_le _)⟩
  | rxByte => exact rxByte_answersWithin h
  | rxStep => exact rxStep_answersWithin h
  | txByte => exact txByte_answersWithin h
  | txStep => exact txStep_answersWithin h
  | ackOut => exact ackOut_answersWithin h
  | outcome w => exact ⟨_, rfl, (decodeOutcome_priority w).trans_le (Nat.zero_le _)⟩

/-- Settles O3: the answer stands for the word, and any matching row bounds its priority because the decoder is a function. -/
theorem decodedInstructionIsItsTableRow : Obligations.DecodedInstructionIsItsTableRow := by
  intro cfg f
  refine ⟨fun i hi => ?_, fun ⟨j, hj⟩ => ?_⟩
  · have hstands := standsFor_of_decode hi
    refine ⟨hstands.wf, hstands.word, hstands.rowMatches, fun j hj => ?_⟩
    obtain ⟨i', hi', hle⟩ := answersWithin_of_rowMatches hj
    cases hi.symm.trans hi'
    exact hle
  · obtain ⟨i, hi, -⟩ := answersWithin_of_rowMatches hj
    exact ⟨i, hi⟩

end Sys2Proof
end

section
/-! PROOFS. Family 30_encoding.md, the reference codec: the decoder's bit string of an encoded body is the Packet's own bit string
(R91, R92), so the codec meets the contract of R93. -/

namespace Sys2Proof

variable {p : Packet}

/-! ### Bytes from bits -/

theorem getMsbD_byteMsbFirst (bit : Nat → Bool) {k : Nat} (hk : k < 8) : (byteMsbFirst bit).getMsbD k = bit k := by
  have hrev : 7 - (7 - k) = k := by omega
  simp [byteMsbFirst, BitVec.getMsbD_ofFnLE, hk, hrev]

theorem getLsbD_byteMsbFirst (bit : Nat → Bool) {k : Nat} (hk : k < 8) : (byteMsbFirst bit).getLsbD k = bit (7 - k) := by
  simp [byteMsbFirst, hk]

/-- A byte is put together from its own bits. -/
theorem byteMsbFirst_eq {bit : Nat → Bool} {b : Byte} (h : ∀ k < 8, bit k = b.getMsbD k) : byteMsbFirst bit = b :=
  BitVec.eq_of_getMsbD_eq fun k hk => (getMsbD_byteMsbFirst bit hk).trans (h k hk)

/-! ### The encoded body -/

/-- The body is the ten encoded bytes (R91). -/
theorem reference_body (p : Packet) : Codec.reference.body p = List.ofFn fun i : Fin 10 => encodedByte p i.val := by
  rw [← Vector.toList_ofFn]
  exact List.take_of_length_le (by simp [Codec.encode, referenceEncode])

theorem reference_body_length (p : Packet) : (Codec.reference.body p).length = 10 := by simp [reference_body]

/-- Bit 7 of an encoded byte is 0 (R91). -/
theorem encodedByte_le (p : Packet) (i : Nat) : (encodedByte p i).toNat ≤ 0x7F := by
  have hmsb : (encodedByte p i).msb = false := by
    rw [BitVec.msb_eq_getMsbD_zero, encodedByte, getMsbD_byteMsbFirst _ (by omega), if_pos rfl]
  have := BitVec.msb_eq_false_iff_two_mul_lt.1 hmsb
  omega

theorem le_of_mem_reference_body {b : Byte} (h : b ∈ Codec.reference.body p) : b.toNat ≤ 0x7F := by
  rw [reference_body, List.mem_ofFn] at h
  obtain ⟨i, rfl⟩ := h
  exact encodedByte_le p i

/-! ### The round trip -/

/-- The decoder's bit string of the body is the Packet's bit string. -/
theorem bodyBit_reference_body (p : Packet) {k : Nat} (hk : k < 64) : bodyBit (Codec.reference.body p) k = packetBit p k := by
  have hbyte : k / 7 < 10 := by omega
  have hbit : 7 - (6 - k % 7) = k % 7 + 1 := by omega
  rw [bodyBit, reference_body, List.getElem?_ofFn, dif_pos hbyte, Option.getD_some, encodedByte,
    getLsbD_byteMsbFirst _ (by omega), hbit, if_neg (Nat.succ_ne_zero _), Nat.add_sub_cancel, Nat.div_add_mod]

theorem packetBit_eq (p : Packet) {j k : Nat} (hj : j < 8) (hk : k < 8) : packetBit p (8 * j + k) = p[j].getMsbD k := by
  have hdiv : (8 * j + k) / 8 = j := by omega
  have hmod : (8 * j + k) % 8 = k := by omega
  simp [packetBit, hdiv, hmod, hj]

theorem referenceValidLen_eq_eight {n : Nat} : referenceValidLen n = 8 ↔ 10 ≤ n := by
  have h : referenceValidLen n = 8 ↔ min 8 (7 * n / 8) = 8 := Fin.ext_iff
  omega

theorem referenceDecode_body (p : Packet) : referenceDecode (Codec.reference.body p) = (p, 8) := by
  have hlen : referenceValidLen (Codec.reference.body p).length = 8 := by
    rw [reference_body_length, referenceValidLen_eq_eight]
  refine Prod.ext (Vector.ext fun j hj => ?_) hlen
  have hvalid : j < ((8 : Fin 9) : Nat) := hj
  simp only [referenceDecode, hlen, Vector.getElem_ofFn, if_pos hvalid]
  refine byteMsbFirst_eq fun k hk => ?_
  rw [bodyBit_reference_body p (by omega), packetBit_eq p hj hk]

/-- The contract of R93: a byte of at most 0x7F is no sentinel, and the bit strings agree. -/
theorem reference_lawful : Codec.reference.Lawful where
  sentinelFree _ hmem := absurd (le_of_mem_reference_body hmem) (by decide)
  roundTrip := referenceDecode_body

/-- Settles O54: the contract, and the lengths read off the two definitions. -/
theorem referenceCodecIsLawful : Obligations.ReferenceCodecIsLawful :=
  ⟨reference_lawful, reference_body_length, fun _ _ => le_of_mem_reference_body, fun _ => rfl,
    fun _ => referenceValidLen_eq_eight⟩

end Sys2Proof
end

section
/-! PROOFS. Family 40_commands.md: the choice of the step (R110), the idle step (R111), the busy step (R112), the acceptance of each
command (R113 to R115), and the end of one (R116). -/

namespace Sys2Proof.Machine

open Sys2Proof

variable {s u : State}

/-! ### The choice of the step -/

/-- No instruction lacks a meaning: it answers a next state or faults at a missing element. -/
theorem exec_ne_refused (i : Instr) (s : State) (r : Refusal) : exec i s ≠ .refused r := by
  obtain ⟨u, hu⟩ | ⟨r', hmissing⟩ := exec_next_or_missing i s
  · simp [hu]
  · simp [hmissing.faults]

theorem advanceOutcome_ne_refused {o : Host.Outcome State Fault Refusal} {r : Refusal} (h : o ≠ .refused r) :
    advanceOutcome o ≠ .refused r := by
  cases o with
  | next t | fault r' => simp [advanceOutcome]
  | refused r' => exact h

/-- Settles O6: some instruction is always selected, it is a row of the table for its word, and it has a meaning. -/
theorem everyStepDecodes : Obligations.EveryStepDecodes := by
  intro s
  obtain ⟨i, hdecode, -⟩ := fetch_selects s
  refine ⟨⟨i, hdecode, (standsFor_of_decode hdecode).wf⟩, fun r => ?_⟩
  cases hrst : s.ports.rst with
  | true => simp [step_of_rst hrst]
  | false =>
    rw [step_of_decode hrst hdecode]
    exact advanceOutcome_ne_refused (exec_ne_refused i s r)

/-- Settles O7: `advance` writes nothing but the port samples and the counter of the free values. -/
theorem stepRunsTheDecodedInstruction : Obligations.StepRunsTheDecodedInstruction := by
  intro s i hrst hdecode
  refine ⟨fun u he => ⟨_, step_next hrst hdecode he, ?_⟩, fun r he => ?_⟩
  · simp
  · rw [step_of_decode hrst hdecode, he]
    rfl

/-! ### The busy step -/

/-- Only a command word is decoded with the operand part of the command port (30_encoding.md R95). -/
theorem decode_operands {cfg : Config} {word : OpWord} (hword : word.format ≠ .cmd) (c : Conditions) (o : CmdOperands) :
    decode cfg ⟨word, { c with operands := o }⟩ = decode cfg ⟨word, c⟩ := by
  cases word with
  | cmd => exact absurd rfl hword
  | rxByte | rxStep | txByte | txStep | ackOut | outcome => rfl

theorem rxWord_format (st : RxState) (abort : Bool) (r : Option Byte) : (rxWord st abort r).format ≠ .cmd := by
  unfold rxWord
  split
  · split <;> simp [OpWord.format]
  · simp [OpWord.format]

theorem txWord_format (st : TxState) (abort : Bool) (r : Option Byte) : (txWord st abort r).format ≠ .cmd := by
  unfold txWord
  split
  · split <;> simp [OpWord.format]
  · simp [OpWord.format]

/-- A busy block fetches no command word (40_commands.md R112). -/
theorem fetchWord_format_of_busy (hbusy : s.busy = true) : s.fetchWord.format ≠ .cmd := by
  unfold State.fetchWord
  split
  · exact rxWord_format _ _ _
  · next hrx =>
    have htx : s.tx.state ≠ .txIdle := by simpa [State.busy, not_not.1 hrx] using hbusy
    rw [if_pos htx]
    exact txWord_format _ _ _

/-- The word of a busy block depends on the two state registers, the abort flag and the answer of `TryRecv` alone. -/
theorem fetchWord_eq_of_busy (hbusy : s.busy = true) (hrx : u.rx = s.rx) (htx : u.tx = s.tx)
    (habort : u.ports.abort = s.ports.abort) (hrecv : u.tryRecv = s.tryRecv) : u.fetchWord = s.fetchWord := by
  by_cases h : s.rx.state = .rxIdle
  · have htx' : s.tx.state ≠ .txIdle := by simpa [State.busy, h] using hbusy
    rw [fetchWord_tx h htx', fetchWord_tx (hrx ▸ h) (htx ▸ htx'), htx, habort, hrecv]
  · simp [State.fetchWord, h, hrx, habort, hrecv]

/-- A busy block decodes the same, whatever stands on the command port (40_commands.md R112). -/
theorem decode_fetch_eq_of_busy (hbusy : s.busy = true) (hrx : u.rx = s.rx) (htx : u.tx = s.tx)
    (habort : u.ports.abort = s.ports.abort) (hrecv : u.tryRecv = s.tryRecv) :
    decode s.config u.fetch = decode s.config s.fetch := by
  have hfetch : u.fetch = ⟨s.fetchWord, { s.fetch.cond with operands := u.ports.operands }⟩ := by
    simp [State.fetch, fetchWord_eq_of_busy hbusy hrx htx habort hrecv, hrx, habort, hrecv]
  rw [hfetch]
  exact decode_operands (fetchWord_format_of_busy hbusy) _ _

/-- Settles O10: both samples answer the transport's calls alike, and a busy block decodes them alike. -/
theorem commandPortIsIgnoredWhileBusy : Obligations.CommandPortIsIgnoredWhileBusy := by
  intro s p rest c o hbusy hin
  refine step_eq_of_samples { p with cmd := c, operands := o } hin rfl fun _ => ⟨rfl, rfl, rfl, Eq.symm ?_⟩
  have hp : s.ports = p := State.ports_of_inputs hin
  exact decode_fetch_eq_of_busy hbusy rfl rfl (by rw [hp]; rfl) (by simp only [State.tryRecv, hp]; rfl)

/-! ### The idle step -/

/-- The idle step runs the command on the port (40_commands.md R111). -/
theorem step_of_idle (hrx : s.rx.state = .rxIdle) (htx : s.tx.state = .txIdle) (hrst : s.ports.rst = false) {k : Command}
    (hcmd : s.ports.cmd = k.code) : step s = advanceOutcome (exec (decodeCmd k.code s.ports.operands) s) :=
  step_of_decode hrst (hcmd ▸ decode_fetch_idle hrx htx)

theorem quiet_onlyEdge (s : State) : OnlyEdge s s.quiet := ⟨rfl, rfl, rfl, rfl, rfl⟩

/-- What an instruction drives, its step drives. -/
theorem Drives.advance {out : Outputs} {sent taken : List Byte} (h : Drives out sent taken s u) :
    StepDrives out sent taken s u.advance := by
  obtain ⟨hout, hsent, htaken, hinputs, hdraws⟩ := h
  exact ⟨hout, hsent, htaken, by rw [State.advance_inputs, hinputs], by rw [State.advance_draws, hdraws]⟩

/-- Settles O9: each code is its command's, and the idle block decodes nothing but the command port. -/
theorem idleStepReadsTheCommandPort : Obligations.IdleStepReadsTheCommandPort := by
  intro s hrx htx hrst
  have accepted {k : Command} := step_of_idle hrx htx hrst (k := k)
  refine ⟨fun hcmd => ?_, fun hcmd => ?_, fun hcmd => ?_, fun hcmd => ?_, fun p rest a hin => ?_⟩
  · exact ⟨_, accepted (k := .nop) hcmd, quiet_onlyEdge s, (quiet_drives s).advance⟩
  · have hstep := accepted (k := .receivePacket) hcmd
    exact ⟨hstep, _, hstep, rfl, rfl⟩
  · have hstep := accepted (k := .sendPacket) hcmd
    exact ⟨hstep, _, hstep, rfl, rfl⟩
  · have hstep := accepted (k := .sendPacketSingleByte) hcmd
    exact ⟨hstep, _, hstep, rfl, rfl⟩
  · refine step_eq_of_samples { p with abort := a } hin rfl fun _ => ⟨rfl, rfl, rfl, Eq.symm ?_⟩
    rw [decode_fetch_idle hrx htx, State.ports_of_inputs hin]
    exact decode_fetch_idle hrx htx

/-! ### The commands -/

/-- Settles O12: NOP is the step that calls nothing. -/
theorem nopChangesNothing : Obligations.NopChangesNothing := fun s =>
  ⟨s.quiet, rfl, quiet_onlyEdge s, quiet_drives s⟩

/-- Acceptance calls nothing (40_commands.md R113, R114, R115). -/
theorem accept_drives (k : Command) (s : State) : Drives Outputs.low [] [] s (accept k s) := quiet_drives s

/-- Settles O13: the acceptance all commands share, and the two receiver registers it writes beside it. -/
theorem receivePacketIsAccepted : Obligations.ReceivePacketIsAccepted := fun s =>
  ⟨_, rfl, rfl, rfl, rfl, rfl, rfl, accept_drives .receivePacket s⟩

/-- The encoder's write, element by element (44_sender_framer.md R193, 10_state.md R23). -/
theorem writeEnc_getElem (old enc : Vector Byte 10) (len : Fin 11) (i : Fin 10) :
    (writeEnc old enc len)[i] = if i.val < len.val then enc[i] else old[i] := by
  simp [writeEnc]

/-- A Packet in its eight bytes, the checksum little-endian last (44_sender_framer.md R192). -/
theorem packetOf_toList (head : Vector Byte 6) (c : Word16) :
    (packetOf head c).toList = head.toList ++ [c.extractLsb' 0 8, c.extractLsb' 8 8] := by
  obtain ⟨⟨l⟩, h⟩ := head
  match l, h with
  | [_, _, _, _, _, _], _ => rfl

/-- Settles O14: the preparation inside the acceptance; Packet and encoding element by element. -/
theorem sendPacketIsPrepared : Obligations.SendPacketIsPrepared := by
  intro s d ty p
  exact ⟨acceptSend .sendPacket (sendPacketHead d ty p) s, rfl, rfl, rfl, rfl, packetOf_toList _ _, rfl, writeEnc_getElem _ _ _,
    rfl, rfl, rfl, rfl, rfl, rfl, accept_drives .sendPacket s⟩

/-- The single-byte command builds the Packet to `DEFAULT_DEST` with its value first in the payload (30_encoding.md R95, R106). -/
theorem singleByteHead_eq (cfg : Config) (ty v : Byte) :
    singleByteHead cfg ty v = sendPacketHead cfg.defaultDest ty #v[v, 0x00, 0x00, 0x00] := rfl

/-- The acceptance of a send command reads its kind only to record it (40_commands.md R114, R115). -/
theorem acceptSend_kind (k k' : Command) (head : Vector Byte 6) (s : State) :
    acceptSend k head s = { acceptSend k' head s with cmdKind := k } := rfl

/-- Settles O15: both commands prepare the same first six bytes, and differ in the kind they record. -/
theorem singleByteIsSendPacketToDefaultDest : Obligations.SingleByteIsSendPacketToDefaultDest := by
  intro s ty v
  refine ⟨_, _, rfl, rfl, rfl, ?_⟩
  rw [singleByteHead_eq]
  exact acceptSend_kind _ _ _ s

/-! ### The end of a command -/

/-- `finish` in a step that calls nothing (40_commands.md R116). -/
theorem finish_quiet_spec (o : CmdOutcome) (s : State) :
    Finished o s (finish o s.quiet) ∧ Drives Outputs.low [] [] s (finish o s.quiet) :=
  ⟨finish_finished o s.quiet, by simp [Drives]⟩

/-- Settles O16: each of the four instructions is `finish` with its outcome. -/
theorem everyOutcomeFinishesTheCommand : Obligations.EveryOutcomeFinishesTheCommand := fun s =>
  ⟨⟨_, rfl, finish_quiet_spec .ok s⟩, ⟨_, rfl, finish_quiet_spec .reset s⟩,
    ⟨_, rfl, finish_quiet_spec .checksumFailed s⟩, ⟨_, rfl, finish_quiet_spec .sendFailed s⟩⟩

end Sys2Proof.Machine
end

section
/-! PROOFS. Family 41_receiver_framer.md, one step: the meaning of each class of byte (R131 to R138), the shape of a receiving
poll iteration (R130), and the transition table of `rx_state` (R139). -/

namespace Sys2Proof.Machine

open Sys2Proof

variable {s t u : State} {b : Byte} {i : Instr}

/-! ### A byte taken by the receiver -/

/-- A class that takes `b` and writes receiver registers only, whatever it writes to them. -/
theorem took_withRx_spec (b : Byte) (s : State) (r : Receiver) :
    OnlyReceiver s { s.took b with rx := r } ∧ Drives Outputs.pop [] [b] s { s.took b with rx := r } :=
  ⟨⟨rfl, rfl, rfl, rfl⟩, took_drives b s⟩

/-- The second consecutive sentinel opens a frame (R132). -/
theorem exec_seekSentinel_second (h : s.rx.sentCnt + 1 = 2) :
    exec .seekSentinel s = .next { s.took sentinel with rx := { s.rx with sentCnt := 0, state := .readLength } } :=
  if_pos h

/-- Any other sentinel is counted (R131). -/
theorem exec_seekSentinel_first (h : s.rx.sentCnt + 1 ≠ 2) :
    exec .seekSentinel s = .next { s.took sentinel with rx := { s.rx with sentCnt := s.rx.sentCnt + 1 } } :=
  if_neg h

/-- A body byte whose element exists is stored there (R138). -/
theorem exec_bodyData (b : Byte) (h : s.rx.idx < s.rx.buf.length) :
    exec (.bodyData b) s = .next { s.took b with
      rx := {
        s.rx with
        buf := s.rx.buf.set s.rx.idx b, idx := s.rx.idx + 1
        state := if s.rx.idx + 1 = s.rx.len.toNat then .validate else s.rx.state } } := by
  simp [exec, execBodyData, State.storeBody_eq_some h]

/-- Settles O17: the two cases of the new count, and the class of any other byte. -/
theorem twoSentinelsOpenAFrame : Obligations.TwoSentinelsOpenAFrame := by
  intro s b
  refine ⟨?_, ?_⟩
  · by_cases hcnt : s.rx.sentCnt + 1 = 2
    · obtain ⟨honly, hdrives⟩ := took_withRx_spec sentinel s { s.rx with sentCnt := 0, state := .readLength }
      exact ⟨_, exec_seekSentinel_second hcnt, honly, hdrives, fun _ => rfl, fun h => absurd hcnt h⟩
    · obtain ⟨honly, hdrives⟩ := took_withRx_spec sentinel s { s.rx with sentCnt := s.rx.sentCnt + 1 }
      exact ⟨_, exec_seekSentinel_first hcnt, honly, hdrives, fun h => absurd h hcnt, fun _ => rfl⟩
  · obtain ⟨honly, hdrives⟩ := took_withRx_spec b s { s.rx with sentCnt := 0 }
    exact ⟨_, rfl, honly, hdrives, rfl⟩

/-- Settles O18: length 0 and any other length differ in the state written. -/
theorem lengthIsAccepted : Obligations.LengthIsAccepted := by
  intro s b
  obtain ⟨honly, hdrives⟩ :=
    took_withRx_spec b s { s.rx with len := b, idx := 0, state := if b = 0 then .validate else .readBody }
  refine ⟨_, rfl, honly, hdrives, ?_, fun hb => ?_⟩
  · rintro rfl
    rfl
  · rw [if_neg hb]

/-- Settles O19: the store is read back by the buffer's read after write. -/
theorem bodyByteIsStored : Obligations.BodyByteIsStored := by
  intro s b hidx
  have hstore := State.storeBody_eq_some (b := b) hidx
  obtain ⟨honly, hdrives⟩ := took_withRx_spec b s {
    s.rx with
    buf := s.rx.buf.set s.rx.idx b, idx := s.rx.idx + 1
    state := if s.rx.idx + 1 = s.rx.len.toNat then .validate else s.rx.state }
  refine ⟨_, exec_bodyData b hidx, honly, hdrives, State.storeBody_length hstore, ?_, fun i hi => ?_, fun hlast => ?_,
    fun hmore => ?_⟩
  · simpa using State.storeBody_get hstore s.rx.idx
  · simpa [hi] using State.storeBody_get hstore i
  · simp [hlast]
  · simp [hmore]

/-! ### The receiving poll iteration -/

/-- Settles O21: the yield touches the edge alone. -/
theorem emptyPollOnlyYields : Obligations.EmptyPollOnlyYields := fun s _ =>
  ⟨s.yielded, rfl, ⟨rfl, rfl, rfl, rfl, rfl⟩, yielded_drives s⟩

/-- The instruction a byte at hand selects takes that byte and writes receiver registers only. -/
theorem Selects.takesByte (hs : Selects s i) (hpoll : s.rx.state.pollsByte = true) (ha : s.ports.abort = false)
    (hrecv : s.tryRecv = some b) (he : exec i s = .next u) : OnlyReceiver s u ∧ Drives Outputs.pop [] [b] s u := by
  cases hs with
  | rxAbort _ habort => simp [ha] at habort
  | rxEmptyPoll _ _ hnone => simp [hrecv] at hnone
  | seekSentinel _ _ hb =>
    cases hrecv.symm.trans hb
    obtain ⟨honly, hio⟩ := execSeekSentinel_next he
    exact ⟨honly, by rw [Drives, hio]; exact took_drives sentinel s⟩
  | lenSentinel _ _ hb | bodySentinel _ _ hb => cases hrecv.symm.trans hb; cases he; exact took_withRx_spec _ s _
  | seekOther _ _ _ hb | lenAccept _ _ _ hb | lenOversize _ _ _ hb =>
    cases hrecv.symm.trans hb
    cases he
    exact took_withRx_spec _ s _
  | bodyData _ _ _ hb =>
    cases hrecv.symm.trans hb
    obtain ⟨-, rfl⟩ := execBodyData_next he
    exact took_withRx_spec _ s _
  | validate hst | acknowledge hst => simp [hst, RxState.pollsByte] at hpoll
  | drain hst | sendFrame hst | txAbort hst | waitAckEmptyPoll hst | ackOk hst | ackNotOk _ hst =>
    simp [hst, RxState.pollsByte] at hpoll
  | nop hst | receivePacket hst | sendPacket hst | sendPacketSingleByte hst => simp [hst, RxState.pollsByte] at hpoll

theorem advanceOutcome_eq_next {o : Host.Outcome State Fault Refusal} (h : advanceOutcome o = .next t) :
    ∃ u, o = .next u ∧ t = u.advance := by
  cases o with
  | next u => cases h; exact ⟨u, rfl, rfl⟩
  | fault | refused => cases h

/-- Settles O22: the abort, the missing byte and the byte each select their instruction. -/
theorem receivingPollIteration : Obligations.ReceivingPollIteration := by
  intro s hpoll hrst
  refine ⟨fun ha => ?_, fun ha hav => ?_, fun ha hav => ?_⟩
  · obtain ⟨hfinished, hdrives⟩ := finish_quiet_spec .reset s
    exact ⟨_, step_next hrst (decode_fetch_rxAbort (samplesAbort_of_pollsByte hpoll) ha) rfl, hfinished, hdrives.advance⟩
  · have hdecode := decode_fetch_rxEmptyPoll hpoll ha (State.tryRecv_eq_none.2 hav)
    exact ⟨_, step_next hrst hdecode rfl, ⟨rfl, rfl, rfl, rfl, rfl⟩, (yielded_drives s).advance⟩
  · have hrecv := State.tryRecv_eq_some.2 ⟨hav, rfl⟩
    obtain ⟨i, hclass, hs⟩ := selects_of_byte hpoll ha hrecv
    have hstep := step_of_decode hrst ((decode_fetch_rxByte hpoll ha hrecv).trans hclass)
    refine ⟨i, hclass, hstep, fun t ht => ?_⟩
    obtain ⟨u, he, rfl⟩ := advanceOutcome_eq_next (hstep.symm.trans ht)
    obtain ⟨honly, hdrives⟩ := hs.takesByte hpoll ha hrecv he
    exact ⟨honly, hdrives.advance⟩

/-! ### The transition table -/

/-- While a send runs, no instruction moves the idle receiver. -/
theorem Move.rxIdle_of_sending (h : Move s u) (hrx : s.rx.state = .rxIdle) (htx : s.tx.state ≠ .txIdle) :
    u.rx.state = s.rx.state := by
  cases h with
  | stays only =>
    obtain ⟨-, hsame, -⟩ := only
    rw [hsame]
  | receives _ before => exact absurd hrx before
  | sends only =>
    obtain ⟨-, hsame, -⟩ := only
    rw [hsame]
  | accepts _ before => simp [State.busy_of_tx htx] at before
  | ends o v _ _ _ result => simp [result, hrx]

/-- Settles O46: the instructions of the receiver row by row; those of a send leave the idle receiver idle. -/
theorem receiverTransitionsAreComplete : Obligations.ReceiverTransitionsAreComplete := by
  intro s t hrst hstep hchange
  obtain ⟨hreset, -⟩ | ⟨-, i, u, hs, he, rfl⟩ := step_cases hstep
  · simp [hrst] at hreset
  have sending (hrx : s.rx.state = .rxIdle) (htx : s.tx.state ≠ .txIdle) : False :=
    hchange ((hs.move he).rxIdle_of_sending hrx htx)
  simp only [State.advance_rx, State.advance_res] at hchange ⊢
  cases hs with
  | nop | sendPacket | sendPacketSingleByte | rxEmptyPoll => cases he; exact absurd rfl hchange
  | receivePacket hrx htx hcmd => cases he; exact .inl ⟨hrx, htx, hcmd, rfl, rfl⟩
  | rxAbort hst ha => cases he; exact .inr (.inl ⟨hst, ha, by simp⟩)
  | seekSentinel hst _ hb =>
    obtain ⟨hcnt, e⟩ | ⟨-, e⟩ := execSeekSentinel_rx he <;> rw [e] at hchange ⊢
    · iterate 2 right
      exact .inl ⟨hst, hb, hcnt, rfl, rfl⟩
    · exact absurd rfl hchange
  | seekOther => cases he; exact absurd rfl hchange
  | lenSentinel hst _ hb =>
    cases he
    iterate 3 right
    exact .inl ⟨hst, hb, rfl, rfl⟩
  | lenAccept b hst _ hb _ hle =>
    cases he
    by_cases h0 : b = 0
    · subst h0
      iterate 6 right
      exact .inl ⟨hst, hb, rfl, rfl, rfl, rfl⟩
    · have hpos : 1 ≤ b.toNat := Nat.pos_of_ne_zero fun h => h0 (BitVec.eq_of_toNat_eq h)
      iterate 5 right
      exact .inl ⟨hst, ⟨b, hb, hpos, hle, rfl, rfl⟩, if_neg h0, rfl⟩
  | lenOversize b hst _ hb hne hlt =>
    cases he
    iterate 4 right
    exact .inl ⟨hst, ⟨b, hb, hne, hlt⟩, rfl, rfl⟩
  | bodySentinel hst _ hb =>
    cases he
    iterate 7 right
    exact .inl ⟨hst, hb, rfl, rfl⟩
  | bodyData b hst _ hb hne =>
    obtain ⟨-, rfl⟩ := execBodyData_next he
    by_cases hlast : s.rx.idx + 1 = s.rx.len.toNat
    · iterate 8 right
      exact .inl ⟨hst, ⟨b, hb, hne⟩, hlast, rfl, if_pos hlast, rfl⟩
    · exact absurd (if_neg hlast) hchange
  | validate hst =>
    obtain ⟨-, rfl⟩ := execValidate_next he
    iterate 9 right
    exact .inl ⟨hst, rfl, rfl⟩
  | acknowledge hst ha =>
    obtain ⟨hready, rfl⟩ | ⟨-, rfl⟩ := execAcknowledge_next he
    · iterate 10 right
      exact ⟨hst, ha, hready, by simp, by simp, by simp⟩
    · exact absurd rfl hchange
  | drain hrx htx | sendFrame hrx htx | txAbort hrx htx | waitAckEmptyPoll hrx htx | ackOk hrx htx | ackNotOk b hrx htx =>
    exact (sending hrx (by simp [htx])).elim

end Sys2Proof.Machine
end

section
/-! PROOFS. Family 41_receiver_framer.md, runs: bytes taken one a step (`Received`), the parity of a run of sentinels (R140), and
a whole frame from its sentinels to its delivery (R131 to R142, 43_crc_validator.md R171 to R174, 45_ack_handshake.md R212). -/

namespace Sys2Proof.Machine

open Sys2Proof

variable {s t u : State} {b : Byte} {bs cs body : List Byte} {qs rest : List Ports} {i : Instr} {r : Receiver}

/-! ### Bytes taken one a step -/

/-- The next steps of `s` take the bytes `bs`, one a step, and lead to `t`: nothing is sent, and only receiver registers are
written. -/
structure Received (s : State) (bs : List Byte) (t : State) : Prop where
  run : Sys2Proof.core.run bs.length s = .next t
  only : OnlyReceiver s t
  sent : t.io.sent = s.io.sent
  taken : t.io.taken = s.io.taken ++ bs
  inputs : t.io.inputs = s.io.inputs.drop bs.length

theorem OnlyReceiver.trans (h : OnlyReceiver s t) (h' : OnlyReceiver t u) : OnlyReceiver s u := by
  obtain ⟨hconfig, htx, hres, hkind⟩ := h
  obtain ⟨hconfig', htx', hres', hkind'⟩ := h'
  exact ⟨hconfig'.trans hconfig, htx'.trans htx, hres'.trans hres, hkind'.trans hkind⟩

theorem Received.nil (s : State) : Received s [] s := ⟨run_zero s, ⟨rfl, rfl, rfl, rfl⟩, rfl, by simp, rfl⟩

theorem Received.trans (h : Received s bs t) (h' : Received t cs u) : Received s (bs ++ cs) u where
  run := by rw [List.length_append, run_add _ h.run, h'.run]
  only := h.only.trans h'.only
  sent := h'.sent.trans h.sent
  taken := by rw [h'.taken, h.taken, List.append_assoc]
  inputs := by rw [h'.inputs, h.inputs, List.drop_drop, List.length_append]

/-- The samples that follow those used up are what is left. -/
theorem Received.inputs_eq (h : Received s bs t) (hin : s.io.inputs = qs ++ rest) (hlen : bs.length = qs.length) :
    t.io.inputs = rest := by
  rw [h.inputs, hin, hlen, List.drop_left]

/-- The first listed sample is the one the next step reads. -/
theorem delivers_of_inputs {p : Ports} (hin : s.io.inputs = p :: rest) (hp : Ports.delivers b p) :
    Ports.delivers b s.ports := by
  rwa [State.ports_of_inputs hin]

theorem pollsByte_of_classifyRx {cfg : Config} {st : RxState} (h : classifyRx cfg st b = .ok i) : st.pollsByte = true := by
  cases st with
  | seekSentinel | readLength | readBody => rfl
  | rxIdle | validate | acknowledge => cases h

/-- A delivered byte is taken by the instruction of its class (R130). -/
theorem received_byte (hp : Ports.delivers b s.ports) (hclass : classifyRx s.config s.rx.state b = .ok i)
    (he : exec i s = .next { s.took b with rx := r }) : ∃ t, Received s [b] t ∧ t.rx = r := by
  obtain ⟨hrst, habort, havail, hdata⟩ := hp
  have hpoll := pollsByte_of_classifyRx hclass
  have hrecv := State.tryRecv_eq_some.2 ⟨havail, hdata⟩
  have hstep := step_next hrst ((decode_fetch_rxByte hpoll habort hrecv).trans hclass) he
  refine ⟨_, ⟨(run_succ hstep).trans (run_zero _), ⟨rfl, rfl, rfl, rfl⟩, rfl, rfl, ?_⟩, rfl⟩
  simp

/-! ### The class of the delivered byte -/

/-- The first sentinel of a pair, in SeekSentinel (R131). -/
theorem received_seek_first (hp : Ports.delivers sentinel s.ports) (hst : s.rx.state = .seekSentinel)
    (hcnt : s.rx.sentCnt = 0) : ∃ t, Received s [sentinel] t ∧ t.rx = { s.rx with sentCnt := 1 } := by
  have he := exec_seekSentinel_first (s := s) (by simp [hcnt])
  rw [hcnt] at he
  exact received_byte hp (hst ▸ classifyRx_seek_sentinel) he

/-- The second sentinel of a pair (R132). -/
theorem received_seek_second (hp : Ports.delivers sentinel s.ports) (hst : s.rx.state = .seekSentinel)
    (hcnt : s.rx.sentCnt = 1) :
    ∃ t, Received s [sentinel] t ∧ t.rx = { s.rx with sentCnt := 0, state := .readLength } :=
  received_byte hp (hst ▸ classifyRx_seek_sentinel) (exec_seekSentinel_second (by simp [hcnt]))

/-- Another byte in SeekSentinel (R133). -/
theorem received_seek_other (hp : Ports.delivers b s.ports) (hb : b ≠ sentinel) (hst : s.rx.state = .seekSentinel) :
    ∃ t, Received s [b] t ∧ t.rx = { s.rx with sentCnt := 0 } :=
  received_byte hp (hst ▸ classifyRx_seek_other hb) rfl

/-- A sentinel in ReadLength or in the body is the first one of a new frame (42_resync.md R150, R151). -/
theorem received_resync (hp : Ports.delivers sentinel s.ports) (hst : s.rx.state = .readLength ∨ s.rx.state = .readBody) :
    ∃ t, Received s [sentinel] t ∧ t.rx = { s.rx with sentCnt := 1, state := .seekSentinel } := by
  obtain hst | hst := hst
  · exact received_byte hp (i := .lenSentinel) (hst ▸ classifyRx_length_sentinel) rfl
  · exact received_byte hp (i := .bodySentinel) (hst ▸ classifyRx_body_sentinel) rfl

/-- A length within the bound (R136). -/
theorem received_length (hp : Ports.delivers b s.ports) (hb : b ≠ sentinel) (hst : s.rx.state = .readLength)
    (hle : b.toNat ≤ s.config.maxBodyLen) :
    ∃ t, Received s [b] t ∧
      t.rx = { s.rx with len := b, idx := 0, state := if b = 0 then .validate else .readBody } :=
  received_byte hp (hst ▸ classifyRx_length_within hb hle) rfl

/-- A length above the bound (42_resync.md R152). -/
theorem received_oversize (hp : Ports.delivers b s.ports) (hb : b ≠ sentinel) (hst : s.rx.state = .readLength)
    (hlt : s.config.maxBodyLen < b.toNat) :
    ∃ t, Received s [b] t ∧ t.rx = { s.rx with sentCnt := 0, state := .seekSentinel } :=
  received_byte hp (hst ▸ classifyRx_length_above hb hlt) rfl

/-- A body byte (R138). -/
theorem received_body (hp : Ports.delivers b s.ports) (hb : b ≠ sentinel) (hst : s.rx.state = .readBody)
    (hidx : s.rx.idx < s.rx.buf.length) :
    ∃ t, Received s [b] t ∧
      t.rx = { s.rx with
        buf := s.rx.buf.set s.rx.idx b, idx := s.rx.idx + 1
        state := if s.rx.idx + 1 = s.rx.len.toNat then .validate else s.rx.state } :=
  received_byte hp (hst ▸ classifyRx_body_data hb) (exec_bodyData b hidx)

/-! ### Runs of sentinels -/

/-- The receiver `r` after a run of `k` sentinels, as R140 has it: the parity decides. -/
def afterSentinels (r : Receiver) (k : Nat) : Receiver :=
  if k % 2 = 0 then { r with sentCnt := 0, state := .readLength } else { r with sentCnt := 1, state := .seekSentinel }

theorem afterSentinels_even {k : Nat} (h : k % 2 = 0) :
    afterSentinels r k = { r with sentCnt := 0, state := .readLength } := if_pos h

theorem afterSentinels_odd {k : Nat} (h : k % 2 = 1) :
    afterSentinels r k = { r with sentCnt := 1, state := .seekSentinel } := if_neg (by omega)

/-- The first sentinel of a run. -/
theorem received_sentinel_starts_run (hp : Ports.delivers sentinel s.ports)
    (hst : (s.rx.state = .seekSentinel ∧ s.rx.sentCnt = 0) ∨ s.rx.state = .readBody) :
    ∃ t, Received s [sentinel] t ∧ t.rx = afterSentinels s.rx 1 := by
  obtain ⟨hst, hcnt⟩ | hst := hst
  · obtain ⟨t, ht, hrx⟩ := received_seek_first hp hst hcnt
    exact ⟨t, ht, by rw [hrx, afterSentinels_odd rfl, ← hst]⟩
  · exact received_resync hp (.inr hst)

/-- One more sentinel of a run. -/
theorem received_sentinel_continues_run {k : Nat} (hp : Ports.delivers sentinel s.ports) (hrx : s.rx = afterSentinels r k) :
    ∃ t, Received s [sentinel] t ∧ t.rx = afterSentinels r (k + 1) := by
  obtain hk | hk := Nat.mod_two_eq_zero_or_one k
  · rw [afterSentinels_even hk] at hrx
    obtain ⟨t, ht, hrx'⟩ := received_resync hp (.inl (by rw [hrx]))
    exact ⟨t, ht, by rw [hrx', hrx, afterSentinels_odd (by omega)]⟩
  · rw [afterSentinels_odd hk] at hrx
    obtain ⟨t, ht, hrx'⟩ := received_seek_second hp (by rw [hrx]) (by rw [hrx])
    exact ⟨t, ht, by rw [hrx', hrx, afterSentinels_even (by omega)]⟩

/-- The rest of a run, by induction on its samples. -/
theorem received_sentinels_continue_run {k : Nat} (hrx : s.rx = afterSentinels r k) (hin : s.io.inputs = qs ++ rest)
    (hqs : ∀ q ∈ qs, Ports.delivers sentinel q) :
    ∃ t, Received s (List.replicate qs.length sentinel) t ∧ t.rx = afterSentinels r (k + qs.length) := by
  induction qs generalizing s k with
  | nil => exact ⟨s, .nil s, hrx⟩
  | cons q qs ih =>
    obtain ⟨hq, hqs⟩ := List.forall_mem_cons.1 hqs
    obtain ⟨t, ht, hrxt⟩ := received_sentinel_continues_run (delivers_of_inputs hin hq) hrx
    obtain ⟨u, hu, hrxu⟩ := ih hrxt (ht.inputs_eq (qs := [q]) hin rfl) hqs
    exact ⟨u, ht.trans hu, by rw [hrxu, List.length_cons, Nat.add_right_comm, Nat.add_assoc]⟩

/-- A run of sentinels from SeekSentinel with count 0 or from ReadBody (R140). -/
theorem received_sentinel_run (hst : (s.rx.state = .seekSentinel ∧ s.rx.sentCnt = 0) ∨ s.rx.state = .readBody)
    (hin : s.io.inputs = qs ++ rest) (hne : qs ≠ []) (hqs : ∀ q ∈ qs, Ports.delivers sentinel q) :
    ∃ t, Received s (List.replicate qs.length sentinel) t ∧ t.rx = afterSentinels s.rx qs.length := by
  cases qs with
  | nil => exact absurd rfl hne
  | cons q qs =>
    obtain ⟨hq, hqs⟩ := List.forall_mem_cons.1 hqs
    obtain ⟨t, ht, hrxt⟩ := received_sentinel_starts_run (delivers_of_inputs hin hq) hst
    obtain ⟨u, hu, hrxu⟩ := received_sentinels_continue_run hrxt (ht.inputs_eq (qs := [q]) hin rfl) hqs
    exact ⟨u, ht.trans hu, by rw [hrxu, List.length_cons, Nat.add_comm]⟩

/-- The byte after a run of an even number of sentinels is a length (R140). -/
theorem received_after_even_run {k : Nat} (hk : k % 2 = 0) (hp : Ports.delivers b s.ports) (hb : b ≠ sentinel)
    (hrx : s.rx = afterSentinels r k) :
    ∃ t, Received s [b] t ∧ (b.toNat ≤ s.config.maxBodyLen → t.rx.len = b ∧ t.rx.idx = 0) ∧
      (s.config.maxBodyLen < b.toNat → t.rx = { r with sentCnt := 0, state := .seekSentinel }) := by
  rw [afterSentinels_even hk] at hrx
  obtain hle | hlt := le_or_gt b.toNat s.config.maxBodyLen
  · obtain ⟨t, ht, hrxt⟩ := received_length hp hb (by rw [hrx]) hle
    exact ⟨t, ht, fun _ => by simp [hrxt], fun hlt => absurd hle hlt.not_ge⟩
  · obtain ⟨t, ht, hrxt⟩ := received_oversize hp hb (by rw [hrx]) hlt
    exact ⟨t, ht, fun hle => absurd hle hlt.not_ge, fun _ => by rw [hrxt, hrx]⟩

/-- The byte after a run of an odd number of sentinels only clears the count (R140). -/
theorem received_after_odd_run {k : Nat} (hk : k % 2 = 1) (hp : Ports.delivers b s.ports) (hb : b ≠ sentinel)
    (hrx : s.rx = afterSentinels r k) :
    ∃ t, Received s [b] t ∧ t.rx = { r with sentCnt := 0, state := .seekSentinel } := by
  rw [afterSentinels_odd hk] at hrx
  obtain ⟨t, ht, hrxt⟩ := received_seek_other hp hb (by rw [hrx])
  exact ⟨t, ht, by rw [hrxt, hrx]⟩

/-- Settles O50: the run leads to the receiver of its parity, and the next byte is classified there. -/
theorem sentinelRunParity : Obligations.SentinelRunParity := by
  intro s qs rest q b hst hin hne hqs hq hb
  obtain ⟨t, ht, hrxt⟩ := received_sentinel_run hst hin hne hqs
  have hq : Ports.delivers b t.ports := delivers_of_inputs (ht.inputs_eq hin List.length_replicate) hq
  have hrun : Sys2Proof.core.run qs.length s = .next t := by simpa using ht.run
  obtain hk | hk := Nat.mod_two_eq_zero_or_one qs.length
  · obtain ⟨u, hu, hwithin, habove⟩ := received_after_even_run hk hq hb hrxt
    obtain ⟨hconfig, -⟩ := ht.only
    rw [hconfig] at hwithin habove
    refine ⟨t, u, hrun, ?_, ht.only, ht.only.trans hu.only, fun _ => ⟨?_, hwithin, habove⟩, fun hodd => by omega⟩
    · simpa using (ht.trans hu).run
    · rw [hrxt, afterSentinels_even hk]
  · obtain ⟨u, hu, hrxu⟩ := received_after_odd_run hk hq hb hrxt
    refine ⟨t, u, hrun, ?_, ht.only, ht.only.trans hu.only, fun heven => by omega, fun _ => ⟨?_, hrxu⟩⟩
    · simpa using (ht.trans hu).run
    · rw [hrxt, afterSentinels_odd hk]

/-! ### The body -/

/-- The receiver has an accepted length and has stored `body` of it so far: ReadBody while bytes are missing, Validate when
none is (R136 to R138). -/
structure StoredBody (r : Receiver) (body : List Byte) : Prop where
  fits : r.len.toNat ≤ r.buf.length
  idx : r.idx = body.length
  stored : r.buf.take body.length = body
  state : r.state = if body.length = r.len.toNat then .validate else .readBody

/-- An accepted length has stored nothing; the body of length 0 is complete (R136). -/
theorem StoredBody.acceptLength (h : b.toNat ≤ r.buf.length) :
    StoredBody { r with len := b, idx := 0, state := if b = 0 then .validate else .readBody } [] where
  fits := h
  idx := rfl
  stored := rfl
  state := by
    have hzero : b = 0 ↔ 0 = b.toNat := by rw [← BitVec.toNat_inj]; exact eq_comm
    simp only [hzero, List.length_nil]

/-- A stored byte extends the body (R138). -/
theorem StoredBody.storeByte (h : StoredBody r body) (hopen : body.length < r.len.toNat) (b : Byte) :
    StoredBody { r with
      buf := r.buf.set r.idx b, idx := r.idx + 1
      state := if r.idx + 1 = r.len.toNat then .validate else r.state } (body ++ [b]) where
  fits := by simpa using h.fits
  idx := by simp [h.idx]
  stored := by
    have hlt : body.length < r.buf.length := hopen.trans_le h.fits
    simp [h.idx, List.take_succ_eq_append_getElem, hlt, List.take_set_of_le, h.stored]
  state := by simp [h.idx, h.state, hopen.ne]

/-- The rest of a body is stored byte by byte, by induction on its bytes. -/
theorem received_rest_of_body (hbody : StoredBody s.rx body) (hlen : (body ++ bs).length = s.rx.len.toNat)
    (hbs : sentinel ∉ bs) (hin : s.io.inputs = qs ++ rest) (hqs : List.Forall₂ Ports.delivers bs qs) :
    ∃ t, Received s bs t ∧ StoredBody t.rx (body ++ bs) ∧ t.rx.len = s.rx.len := by
  induction hqs generalizing s body with
  | nil => exact ⟨s, .nil s, by simpa using hbody, rfl⟩
  | @cons b q bs qs hq hqs ih =>
    obtain ⟨hb, hbs⟩ : sentinel ≠ b ∧ sentinel ∉ bs := by simpa using hbs
    have hopen : body.length < s.rx.len.toNat := by simp [← hlen]
    have hst : s.rx.state = .readBody := by rw [hbody.state, if_neg hopen.ne]
    have hidx : s.rx.idx < s.rx.buf.length := hbody.idx ▸ hopen.trans_le hbody.fits
    obtain ⟨t, ht, hrxt⟩ := received_body (delivers_of_inputs hin hq) (Ne.symm hb) hst hidx
    have hbody' : StoredBody t.rx (body ++ [b]) := hrxt ▸ hbody.storeByte hopen b
    have hlent : t.rx.len = s.rx.len := by rw [hrxt]
    obtain ⟨u, hu, hstored, hlenu⟩ :=
      ih hbody' (by simpa [hlent] using hlen) hbs (ht.inputs_eq (qs := [q]) hin rfl)
    exact ⟨u, ht.trans hu, by simpa using hstored, hlenu.trans hlent⟩

/-! ### The whole frame -/

/-- The bytes of a frame: two sentinels, the length, the body (30_encoding.md R84 to R86). -/
def frameOf (body : List Byte) : List Byte := [sentinel, sentinel, BitVec.ofNat 8 body.length] ++ body

/-- A frame of any body without sentinel, within the bound, is stored and leads to Validate (R131 to R138). -/
theorem received_frame (hinv : ControlInv s) (hst : s.rx.state = .seekSentinel) (hcnt : s.rx.sentCnt = 0)
    (hbody : sentinel ∉ body) (hmax : body.length ≤ s.config.maxBodyLen) (hin : s.io.inputs = qs ++ rest)
    (hqs : List.Forall₂ Ports.delivers (frameOf body) qs) :
    ∃ t, Received s (frameOf body) t ∧ StoredBody t.rx body ∧
      t.rx.len.toNat = body.length := by
  obtain ⟨-, hbound, -⟩ := wf_facts hinv.config
  have hnat : (BitVec.ofNat 8 body.length).toNat = body.length := Nat.mod_eq_of_lt (by omega)
  have hle : (BitVec.ofNat 8 body.length).toNat ≤ s.config.maxBodyLen := hnat.trans_le hmax
  match qs, hqs with
  | q₁ :: q₂ :: q₃ :: qs, .cons h₁ (.cons h₂ (.cons h₃ hqs)) =>
    obtain ⟨t, ht, hrxt⟩ := received_sentinel_run (qs := [q₁, q₂]) (.inl ⟨hst, hcnt⟩) hin (by simp) (by simp [h₁, h₂])
    rw [afterSentinels_even (k := [q₁, q₂].length) (by simp)] at hrxt
    have hint := ht.inputs_eq (qs := [q₁, q₂]) hin rfl
    obtain ⟨hconfig, -⟩ := ht.only
    rw [← hconfig] at hle
    obtain ⟨u, hu, hrxu⟩ := received_length (delivers_of_inputs hint h₃)
      (ne_sentinel_of_le_maxBodyLen hinv.config (hconfig ▸ hle)) (by rw [hrxt]) hle
    have hinu := hu.inputs_eq (qs := [q₃]) hint rfl
    have hfits : (BitVec.ofNat 8 body.length).toNat ≤ t.rx.buf.length := by
      rw [hnat, hrxt]
      exact hmax.trans_eq hinv.bufLength.symm
    have hlen : u.rx.len.toNat = body.length := by rw [hrxu]; exact hnat
    have hnone : StoredBody u.rx [] := hrxu ▸ StoredBody.acceptLength hfits
    obtain ⟨w, hw, hstored, hlenw⟩ := received_rest_of_body hnone hlen.symm hbody hinu hqs
    exact ⟨w, (ht.trans hu).trans hw, hstored, by rw [hlenw, hlen]⟩

/-- VALIDATE of a body that decodes to a whole Packet with its own checksum answers Ok (43_crc_validator.md R172, R174). -/
theorem exec_validate_intact {p : Packet} (hbody : s.rxBody = some body) (hdecode : s.config.codec.decode body = (p, 8))
    (hsum : packetChecksum s.config p = embeddedChecksum p) :
    exec .validate s = .next { s.quiet with
      rx := {
        s.rx with
        pkt := p, vlen := 8, crc := packetChecksum s.config p, verdict := .ok, state := .acknowledge } } := by
  have hverdict : verdictOf 8 (packetChecksum s.config p) (embeddedChecksum p) = .ok := verdictOf_eq_ok.2 ⟨rfl, hsum⟩
  simp [exec, execValidate, hbody, hdecode, hverdict]

/-- The step of Validate on such a body leads to Acknowledge with that Packet and the verdict Ok. -/
theorem step_validate_intact {p : Packet} (hrst : s.ports.rst = false) (hst : s.rx.state = .validate)
    (hbody : s.rxBody = some body) (hdecode : s.config.codec.decode body = (p, 8))
    (hsum : packetChecksum s.config p = embeddedChecksum p) :
    ∃ t, step s = .next t ∧ OnlyReceiver s t ∧ StepDrives Outputs.low [] [] s t ∧
      t.rx.state = .acknowledge ∧ t.rx.pkt = p ∧ t.rx.verdict = .ok :=
  ⟨_, step_next hrst (decode_fetch_validate hst) (exec_validate_intact hbody hdecode hsum), ⟨rfl, rfl, rfl, rfl⟩,
    (quiet_drives s).advance, rfl, rfl, rfl⟩

/-- ACKNOWLEDGE with a ready transport sends the byte of the verdict and ends the command (45_ack_handshake.md R212). -/
theorem exec_acknowledge_ready (hready : s.ports.txReady = true) :
    exec .acknowledge s =
      .next (finish (verdictOutcome s.rx.verdict) (s.pushed (ackByte s.config s.rx.verdict))) := by
  simp [exec, execAcknowledge, offerAck, hready]

/-- The step of Acknowledge with the verdict Ok and a ready transport sends `ACK_OK` and ends the command Ok. -/
theorem step_acknowledge_ok (hrst : s.ports.rst = false) (ha : s.ports.abort = false) (hready : s.ports.txReady = true)
    (hst : s.rx.state = .acknowledge) (hok : s.rx.verdict = .ok) :
    ∃ t, step s = .next t ∧ Finished .ok s t ∧
      StepDrives (Outputs.push s.config.ackOk) [s.config.ackOk] [] s t := by
  have he := exec_acknowledge_ready hready
  rw [hok] at he
  have hdrives : Drives (Outputs.push s.config.ackOk) [s.config.ackOk] [] s (finish .ok (s.pushed s.config.ackOk)) := by
    rw [Drives, finish_io]
    exact pushed_drives s.config.ackOk s
  exact ⟨_, step_next hrst (decode_fetch_acknowledge hst ha) he, finish_finished .ok (s.pushed s.config.ackOk),
    hdrives.advance⟩

/-- An ended command leaves both machines idle (40_commands.md R116). -/
theorem Finished.not_busy {o : CmdOutcome} (h : Finished o s t) : t.busy = false := by
  obtain ⟨-, -, -, -, hrx, htx, -, -⟩ := h
  exact State.not_busy_iff.2 ⟨by rw [hrx], by rw [htx]⟩

/-- The encoded body of a Packet is within the bound of an allowed configuration (00_scope.md R7, R12). -/
theorem body_length_le {cfg : Config} (hcfg : cfg.wf = true) (p : Packet) : (cfg.codec.body p).length ≤ cfg.maxBodyLen := by
  obtain ⟨hmin, -⟩ := wf_facts hcfg
  have : (cfg.codec.body p).length ≤ 10 := by simp [Codec.body]
  exact this.trans hmin

/-- Settles O51: the frame is stored, its body validates Ok, and the acknowledgement ends the command. -/
theorem wholeFrameIsDelivered : Obligations.WholeFrameIsDelivered := by
  intro s p qs rest v a hinv hfree hdecode hsum hst hcnt hin hqs hvrst harst haabort hready
  have hkind : s.cmdKind = .receivePacket := hinv.rxKind (by simp [hst])
  replace hqs : List.Forall₂ Ports.delivers (frameOf (s.config.codec.body p)) qs := hqs
  obtain ⟨t, ht, hstored, hlen⟩ := received_frame hinv hst hcnt hfree (body_length_le hinv.config p) hin hqs
  obtain ⟨hconfig, -, -, hkindt⟩ := ht.only
  have hint := ht.inputs_eq hin hqs.length_eq
  have hv := State.ports_of_inputs hint
  have hvalidate : t.rx.state = .validate := by rw [hstored.state, if_pos hlen.symm]
  have hbody : t.rxBody = some (s.config.codec.body p) := by rw [State.rxBody_eq_some hstored.fits, hlen, hstored.stored]
  obtain ⟨u, hstepu, ⟨hconfigu, -, -, hkindu⟩, ⟨-, hsentu, htakenu, hinu, -⟩, hack, hpkt, hok⟩ :=
    step_validate_intact (hv ▸ hvrst) hvalidate hbody (hconfig ▸ hdecode) (hconfig ▸ hsum)
  have ha : u.ports = a := State.ports_of_inputs (hinu.trans (congrArg List.tail hint))
  obtain ⟨w, hstepw, hfinished, ⟨-, hsentw, htakenw, -⟩⟩ :=
    step_acknowledge_ok (ha ▸ harst) (ha ▸ haabort) (ha ▸ hready) hack hok
  have hbusy := hfinished.not_busy
  obtain ⟨houtcome, hdone, hdeliver, -⟩ := hfinished
  obtain ⟨hpktw, hvalid⟩ := hdeliver ⟨(hkindu.trans hkindt).trans hkind, rfl⟩
  have hrun : Sys2Proof.core.run (qs.length + 2) s = .next w := by
    rw [← hqs.length_eq, run_add 2 ht.run, run_succ hstepu, run_succ hstepw, run_zero]
  refine ⟨w, hrun, hbusy, hdone, houtcome, hvalid, hpktw.trans hpkt, ?_, ?_⟩
  · rw [hsentw, hsentu, ht.sent, hconfigu, hconfig, List.append_nil]
  · rw [htakenw, htakenu, ht.taken, List.append_nil, List.append_nil]
    rfl

end Sys2Proof.Machine
end

section
/-! PROOFS. Family 42_resync.md: a resynchronisation takes its byte and writes the sentinel count and `rx_state`, nothing else
(R150 to R152, R154). -/

namespace Sys2Proof.Machine

open Sys2Proof

/-- A resynchronisation on the byte `b` with any credit (R150 to R152). -/
theorem resync_took_spec (credit : BitVec 2) (b : Byte) (s : State) :
    OnlyReceiver s (resync credit (s.took b)) ∧ Drives Outputs.pop [] [b] s (resync credit (s.took b)) ∧
      (resync credit (s.took b)).rx = { s.rx with sentCnt := credit, state := .seekSentinel } := by
  obtain ⟨honly, hdrives⟩ := took_withRx_spec b s { s.rx with sentCnt := credit, state := .seekSentinel }
  exact ⟨honly, hdrives, rfl⟩

/-- Settles O20: the three classes are one resynchronisation each, told apart by the credit and the byte. -/
theorem resynchronisationIsLocal : Obligations.ResynchronisationIsLocal := fun s b =>
  ⟨⟨_, rfl, resync_took_spec 1 sentinel s⟩, ⟨_, rfl, resync_took_spec 1 sentinel s⟩, ⟨_, rfl, resync_took_spec 0 b s⟩⟩

end Sys2Proof.Machine
end

section
/-! PROOFS. Family 43_crc_validator.md: no change within one byte is lost by either CRC (R179 (b)), and what VALIDATE computes
(R171 to R176). -/

namespace Sys2Proof

variable {c d : Word16} {a b : Byte} {e : CrcEngine}

/-! ### One bit of an engine is invertible -/

/-- Bit 0 tells whether the polynomial was folded in, that is, which bit was shifted out. -/
theorem crcBitMsb_getLsbD_zero (c : Word16) : (crcBitMsb c).getLsbD 0 = c.msb := by
  unfold crcBitMsb
  split <;> simp [*]

/-- Bit 15 tells whether the polynomial was folded in, that is, which bit was shifted out. -/
theorem crcBitLsb_msb (c : Word16) : (crcBitLsb c).msb = c.getLsbD 0 := by
  unfold crcBitLsb
  split <;> simp_all [BitVec.msb_eq_getLsbD_last]

theorem eq_of_msb_of_shiftLeft_one (hmsb : c.msb = d.msb) (hshift : c <<< 1 = d <<< 1) : c = d := by
  refine BitVec.eq_of_getLsbD_eq fun i hi => ?_
  rcases Nat.lt_or_ge i 15 with hlt | hge
  · have hbit := congrArg (·.getLsbD (i + 1)) hshift
    have hlt' : i + 1 < 16 := by omega
    simpa [hlt', BitVec.getLsbD_eq_getElem hi] using hbit
  · obtain rfl : i = 15 := by omega
    simpa [BitVec.msb_eq_getLsbD_last] using hmsb

theorem eq_of_lsb_of_ushiftRight_one (hlsb : c.getLsbD 0 = d.getLsbD 0) (hshift : c >>> 1 = d >>> 1) : c = d := by
  refine BitVec.eq_of_getLsbD_eq fun i _ => ?_
  cases i with
  | zero => exact hlsb
  | succ i =>
    have hbit := congrArg (·.getLsbD i) hshift
    simpa [Nat.add_comm] using hbit

/-- Folding the polynomial `p` in is undone when it is known whether it was. -/
theorem eq_of_folded_eq {q : Prop} [Decidable q] {p : Word16} (h : (if q then c ^^^ p else c) = if q then d ^^^ p else d) :
    c = d := by
  split at h
  · exact (BitVec.xor_left_inj p).1 h
  · exact h

theorem crcBitMsb_injective : Function.Injective crcBitMsb := fun c d h => by
  have hmsb : c.msb = d.msb := by rw [← crcBitMsb_getLsbD_zero, h, crcBitMsb_getLsbD_zero]
  refine eq_of_msb_of_shiftLeft_one hmsb ?_
  unfold crcBitMsb at h
  rw [hmsb] at h
  exact eq_of_folded_eq h

theorem crcBitLsb_injective : Function.Injective crcBitLsb := fun c d h => by
  have hlsb : c.getLsbD 0 = d.getLsbD 0 := by rw [← crcBitLsb_msb, h, crcBitLsb_msb]
  refine eq_of_lsb_of_ushiftRight_one hlsb ?_
  unfold crcBitLsb at h
  rw [hlsb] at h
  exact eq_of_folded_eq h

theorem repeat_injective {α : Type} {f : α → α} (hf : Function.Injective f) (n : Nat) :
    Function.Injective (Nat.repeat f n) := by
  induction n with
  | zero => exact Function.injective_id
  | succ n ih => exact hf.comp ih

/-! ### One byte of an engine, and a whole sequence -/

/-- The engine is one of the two the spec gives (R177, R178). -/
def CrcEngine.Given (e : CrcEngine) : Prop := e = .msbFirst1021 ∨ e = .lsbFirstA001

/-- Different running checksums stay different over the same byte. -/
theorem CrcEngine.Given.update_injective (he : e.Given) (b : Byte) : Function.Injective (e.update · b) := by
  obtain rfl | rfl := he
  · exact fun c d h => (BitVec.xor_left_inj _).1 (repeat_injective crcBitMsb_injective 8 h)
  · exact fun c d h => (BitVec.xor_left_inj _).1 (repeat_injective crcBitLsb_injective 8 h)

/-- From the same running checksum, different bytes give different ones. -/
theorem CrcEngine.Given.update_byte_injective (he : e.Given) (c : Word16) : Function.Injective (e.update c) := by
  obtain rfl | rfl := he
  · intro a b h
    have hshift := (BitVec.xor_right_inj _).1 (repeat_injective crcBitMsb_injective 8 h)
    bv_omega
  · intro a b h
    have hext := (BitVec.xor_right_inj _).1 (repeat_injective crcBitLsb_injective 8 h)
    bv_omega

theorem foldl_injective {α β : Type} {f : β → α → β} (hf : ∀ x, Function.Injective (f · x)) (l : List α) :
    Function.Injective (l.foldl f) := by
  induction l with
  | nil => exact Function.injective_id
  | cons x l ih => exact ih.comp (hf x)

/-- Sequences of any length that differ in one byte alone have different checksums. -/
theorem crc16_ne_of_byte_ne {cfg : Config} (he : cfg.crc.Given) (hab : a ≠ b) (pre post : List Byte) :
    crc16 cfg (pre ++ a :: post) ≠ crc16 cfg (pre ++ b :: post) := by
  simp only [crc16, List.foldl_append, List.foldl_cons]
  exact fun h => hab (he.update_byte_injective _ (foldl_injective he.update_injective post h))

theorem xor_twoPow_ne (b : Byte) {k : Nat} (hk : k < 8) : b ^^^ BitVec.twoPow 8 k ≠ b := fun h => by
  have hbit := congrArg (·.getLsbD k) h
  simp [hk] at hbit

/-- Sequences one bit apart differ in one byte alone. -/
theorem OneBitApart.byte_ne {x y : List Byte} (h : OneBitApart x y) :
    ∃ pre post a b, a ≠ b ∧ x = pre ++ a :: post ∧ y = pre ++ b :: post := by
  obtain ⟨-, i, k, hi, hk, rfl⟩ := h
  obtain ⟨pre, post, hx, -, hset⟩ := List.exists_of_set (a' := x[i] ^^^ BitVec.twoPow 8 k) hi
  refine ⟨pre, post, x[i], x[i] ^^^ BitVec.twoPow 8 k, (xor_twoPow_ne x[i] hk).symm, hx, ?_⟩
  rw [List.getElem?_eq_getElem hi, Option.getD_some, hset]

/-- Settles O55: both engines are injective in the running checksum and in the byte, so a changed byte changes every
checksum after it. -/
theorem singleBitChangesAreDetected : Obligations.SingleBitChangesAreDetected := by
  intro cfg x y he _ hxy
  obtain ⟨pre, post, a, b, hab, rfl, rfl⟩ := hxy.byte_ne
  exact crc16_ne_of_byte_ne he hab pre post

end Sys2Proof

namespace Sys2Proof.Machine

open Sys2Proof

/-! ### VALIDATE -/

/-- The checksum covers the Packet's bytes 0 to 5, in that order (R173). -/
theorem packetHead_eq (p : Packet) : packetHead p = [p[0], p[1], p[2], p[3], p[4], p[5]] := by
  obtain ⟨⟨l⟩, h⟩ := p
  match l, h with
  | [_, _, _, _, _, _, _, _], _ => rfl

/-- Settles O24: the body exists, so VALIDATE answers, and the verdict is Ok as `verdictOf_eq_ok` says. -/
theorem validateComputesTheVerdict : Obligations.ValidateComputesTheVerdict := by
  intro s hle
  obtain ⟨t, ht⟩ : ∃ t, execValidate s = .next t := by simp [execValidate, State.rxBody_eq_some hle]
  obtain ⟨-, rfl⟩ := execValidate_next ht
  exact ⟨_, ht, ⟨rfl, rfl, rfl, rfl⟩, quiet_drives s, rfl, congrArg (crc16 s.config) (packetHead_eq _), verdictOf_eq_ok,
    rfl, rfl, rfl, rfl, rfl⟩

/-- Settles O25: the stored body is the encoding, which decodes to the Packet (`exec_validate_intact`). -/
theorem intactBodyValidatesOk : Obligations.IntactBodyValidatesOk := by
  intro s p hdecode hsum hle hstored
  have hbody : s.rxBody = some (s.config.codec.body p) := by rw [State.rxBody_eq_some hle, hstored]
  exact ⟨_, exec_validate_intact hbody hdecode hsum, rfl, rfl, rfl, rfl⟩

end Sys2Proof.Machine
end

section
/-! PROOFS. Family 44_sender_framer.md, one step: Drain (R195) and SendFrame (R197), the Packet in flight (R190 to R193, R201), the
sentinels of its frame (R202), the transition table of `tx_state` (R200), and where bytes may move (R203). -/

namespace Sys2Proof.Machine

open Sys2Proof

variable {s u : State} {b : Byte} {i : Instr} {c : Config} {x : Sender}

/-! ### Drain and SendFrame -/

/-- The one `TryRecv` of Drain takes the byte at hand, if there is one (R195). -/
theorem drained_drives (s : State) :
    Drives (if s.ports.rxAvail then Outputs.pop else Outputs.low) [] s.tryRecv.toList s s.drained := by
  cases hav : s.ports.rxAvail with
  | true =>
    rw [drained_of_rxAvail hav, State.tryRecv_eq_some.2 ⟨hav, rfl⟩]
    exact took_drives s.ports.rxData s
  | false =>
    rw [drained_of_not_rxAvail hav, State.tryRecv_eq_none.2 hav]
    exact quiet_drives s

/-- Settles O28: the one `TryRecv` touches the edge alone, and the sender's registers are written beside it. -/
theorem drainTakesAtMostOneByte : Obligations.DrainTakesAtMostOneByte := by
  intro s
  have hdrives := drained_drives s
  refine ⟨_, rfl, s.drained_onlyEdge.withTx _, rfl, fun hav => ?_, fun hav => ?_⟩
  · rw [if_pos hav, State.tryRecv_eq_some.2 ⟨hav, rfl⟩] at hdrives
    exact hdrives
  · rw [if_neg (by simp [hav]), State.tryRecv_eq_none.2 hav] at hdrives
    exact hdrives

/-- Every position within the frame has a byte (R196). -/
theorem State.exists_frameByte (hpos : s.tx.pos.toNat < s.tx.encLen.val + 3) : ∃ b, s.frame[s.tx.pos.toNat]? = some b :=
  ⟨_, List.getElem?_eq_getElem (hpos.trans_eq s.frame_length.symm)⟩

/-- A ready transport takes the byte at the position (R197). -/
theorem exec_sendFrame_ready (hb : s.frame[s.tx.pos.toNat]? = some b) (hready : s.ports.txReady = true) :
    exec .sendFrame s = .next (frameByteSent b s) := by
  simp [exec, execSendFrame, hb, hready]

/-- A refused byte changes nothing (R197). -/
theorem exec_sendFrame_refused (hb : s.frame[s.tx.pos.toNat]? = some b) (hrefused : s.ports.txReady = false) :
    exec .sendFrame s = .next s.quiet := by
  simp [exec, execSendFrame, hb, hrefused]

theorem frameByteSent_drives (b : Byte) (s : State) : Drives (Outputs.push b) [b] [] s (frameByteSent b s) := by
  rw [Drives, frameByteSent_io]
  exact pushed_drives b s

/-- Settles O29: the byte is taken or refused, and taken it is the last one of the frame or not. -/
theorem sendFrameOffersTheByteAtItsPosition : Obligations.SendFrameOffersTheByteAtItsPosition := by
  refine fun s => ⟨fun b hb => ?_, State.exists_frameByte⟩
  cases hready : s.ports.txReady with
  | true =>
    refine ⟨_, exec_sendFrame_ready hb hready, frameByteSent_onlySender b s,
      fun _ => ⟨frameByteSent_drives b s, ?_⟩, nofun⟩
    obtain ⟨hlast, e⟩ | ⟨hmore, e⟩ := frameByteSent_cases b s <;> rw [e]
    · exact ⟨fun _ => rfl, fun hmore => absurd hlast hmore⟩
    · exact ⟨fun hlast => absurd hlast hmore, fun _ => rfl⟩
  | false =>
    exact ⟨_, exec_sendFrame_refused hb hready, ⟨rfl, rfl, rfl, rfl⟩, nofun, fun _ => ⟨rfl, quiet_drives s⟩⟩

/-! ### The Packet in flight -/

/-- What the sender invariant says of the sender's registers while a send runs: the Packet carries its checksum, and `tx_enc` holds
its encoding (R191 to R193). -/
structure PacketPrepared (c : Config) (x : Sender) : Prop where
  checksum : x.crc = packetChecksum c x.pkt
  stored : embeddedChecksum x.pkt = x.crc
  encLen : x.encLen = (c.codec.encode x.pkt).2
  enc : x.enc.toList.take x.encLen.val = c.codec.body x.pkt

theorem senderInv_iff : SenderInv s ↔ (s.tx.state ≠ .txIdle → PacketPrepared s.config s.tx) := by
  constructor
  · intro h hrun
    obtain ⟨hlen, henc⟩ := h.encoded hrun
    exact ⟨h.checksum hrun, h.stored hrun, hlen, henc⟩
  · intro h
    exact ⟨fun hrun => (h hrun).checksum, fun hrun => (h hrun).stored, fun hrun => ⟨(h hrun).encLen, (h hrun).enc⟩⟩

/-- The preparation inside an acceptance stores the checksum and encodes (R191 to R193). -/
theorem acceptSend_prepared (k : Command) (head : Vector Byte 6) (s : State) :
    PacketPrepared s.config (acceptSend k head s).tx where
  checksum := by simp [acceptSend, packetChecksum]
  stored := by simp [acceptSend]
  encLen := rfl
  enc := writeEnc_take _ _ _

/-- The state, the position, the attempt and the wait are no part of the preparation: every attempt finds it as it was (R201). -/
theorem PacketPrepared.progress (h : PacketPrepared c x) (st : TxState) (pos : BitVec 4) (attempt wait : Nat) :
    PacketPrepared c { x with state := st, pos := pos, attempt := attempt, wait := wait } :=
  { h with }

theorem PacketPrepared.frameByteSent (h : PacketPrepared c s.tx) (b : Byte) : PacketPrepared c (frameByteSent b s).tx := by
  obtain ⟨-, e⟩ | ⟨-, e⟩ := frameByteSent_cases b s <;> rw [e] <;> exact h.progress _ _ _ _

theorem PacketPrepared.attemptFailed (h : PacketPrepared c s.tx) : PacketPrepared c (attemptFailed s).tx := by
  obtain ⟨-, e⟩ | ⟨-, e⟩ := attemptFailed_cases s
  · rw [e, finish_tx]
    exact h.progress _ _ _ _
  · rw [e]
    exact h.progress _ _ _ _

/-- While a send runs after the selected instruction, its Packet is prepared: it was so before, or was just accepted. -/
theorem Selects.packetPrepared (hs : Selects s i) (he : exec i s = .next u)
    (h : s.tx.state ≠ .txIdle → PacketPrepared s.config s.tx) (hrun : u.tx.state ≠ .txIdle) :
    PacketPrepared s.config u.tx := by
  cases hs with
  | sendPacket | sendPacketSingleByte => cases he; exact acceptSend_prepared _ _ s
  | nop | receivePacket | rxEmptyPoll => cases he; exact h hrun
  | seekOther | lenSentinel | lenAccept | lenOversize | bodySentinel => cases he; exact h hrun
  | seekSentinel =>
    obtain ⟨⟨-, htx, -⟩, -⟩ := execSeekSentinel_next he
    rw [htx] at hrun ⊢
    exact h hrun
  | bodyData =>
    obtain ⟨-, rfl⟩ := execBodyData_next he
    exact h hrun
  | validate =>
    obtain ⟨-, rfl⟩ := execValidate_next he
    exact h hrun
  | acknowledge =>
    obtain ⟨-, rfl⟩ | ⟨-, rfl⟩ := execAcknowledge_next he
    · simp at hrun
    · exact h hrun
  | rxAbort | txAbort | ackOk => cases he; simp at hrun
  | drain _ hst => cases he; exact (h (by simp [hst])).progress _ _ _ _
  | sendFrame _ hst =>
    have hprep := h (by simp [hst])
    obtain ⟨b, -, ⟨-, rfl⟩ | ⟨-, rfl⟩⟩ := execSendFrame_next he
    · exact hprep
    · exact hprep.frameByteSent b
  | waitAckEmptyPoll _ hst =>
    have hprep := h (by simp [hst])
    obtain ⟨-, rfl⟩ | ⟨n, -, -, rfl⟩ | ⟨n, -, -, rfl⟩ := execWaitAckEmptyPoll_next he
    · rwa [State.waitPolled_tx]
    · exact PacketPrepared.attemptFailed (hprep.progress _ _ _ _)
    · exact hprep.progress _ _ _ _
  | ackNotOk b _ hst => cases he; exact PacketPrepared.attemptFailed (s := s.took b) (h (by simp [hst]))

/-- The port sample is no part of the sender invariant. -/
theorem SenderInv.advance (h : SenderInv s) : SenderInv s.advance := { h with }

/-- Settles O39: a reset leaves no send running, and the selected instruction leaves a running one prepared. -/
theorem stepKeepsTheSenderInvariant : Obligations.StepKeepsTheSenderInvariant := by
  intro s t hinv h
  obtain ⟨-, rfl⟩ | ⟨-, i, u, hs, he, rfl⟩ := step_cases h
  · exact (resetStep_values s).senderInv.advance
  · have hu : SenderInv u := by
      rw [senderInv_iff, exec_config he]
      exact hs.packetPrepared he (senderInv_iff.1 hinv)
    exact hu.advance

/-! ### The frame -/

/-- While a send runs, the frame is that of its Packet's encoded body (R196). -/
theorem SenderInv.frame_eq (h : SenderInv s) (hrun : s.tx.state ≠ .txIdle) :
    s.frame = frameOf (s.config.codec.body s.tx.pkt) := by
  obtain ⟨-, henc⟩ := h.encoded hrun
  have hle : s.tx.encLen.val ≤ 10 := Nat.le_of_lt_succ s.tx.encLen.isLt
  have hlen : (s.config.codec.body s.tx.pkt).length = s.tx.encLen.val := by simp [← henc, hle]
  rw [State.frame, frameOf, henc, hlen]

/-- A body without sentinel, shorter than 255 bytes, makes a frame with sentinels at its first two positions only (R202). -/
theorem frameOf_eq_sentinel_iff {body : List Byte} {k : Nat} (hfree : sentinel ∉ body) (hlen : body.length < 255)
    (hb : (frameOf body)[k]? = some b) : b = sentinel ↔ k < 2 := by
  match k, hb with
  | 0, hb | 1, hb => cases hb; simp
  | 2, hb =>
    cases hb
    have hlength : BitVec.ofNat 8 body.length ≠ sentinel := by
      rw [ne_sentinel_iff, BitVec.toNat_ofNat]
      omega
    simp [hlength]
  | k + 3, hb =>
    have hmem : b ∈ body := List.mem_of_getElem? (i := k) hb
    have hne : b ≠ sentinel := fun h => hfree (h ▸ hmem)
    simp [hne]

/-- Settles O43: the frame is that of the encoded body, which is at most `CODEC_MAX_LEN` bytes long. -/
theorem frameHoldsSentinelsOnlyAtItsStart : Obligations.FrameHoldsSentinelsOnlyAtItsStart := by
  intro s hinv hrun hfree k b hb
  rw [hinv.frame_eq hrun] at hb
  have hlen : (s.config.codec.body s.tx.pkt).length < 255 := by
    simp only [Codec.body, List.length_take, Vector.length_toList]
    omega
  exact frameOf_eq_sentinel_iff hfree hlen hb

/-! ### The transition table -/

/-- How an attempt fails in WaitAck: the last allowed one ends the send, any other starts the next (45_ack_handshake.md R220). -/
theorem attemptFailed_transition (s : State) :
    (attemptFailed s).tx.wait = s.tx.wait ∧
    ((s.tx.attempt ≠ s.config.maxSendAttempts ∧ (attemptFailed s).tx.state = .drain) ∨
      (s.tx.attempt = s.config.maxSendAttempts ∧ (attemptFailed s).tx.state = .txIdle ∧
        (attemptFailed s).res.outcome = .sendFailed)) := by
  obtain ⟨hlast, e⟩ | ⟨hleft, e⟩ := attemptFailed_cases s
  · rw [e]
    exact ⟨by simp, .inr ⟨hlast, by simp, finish_outcome _ s⟩⟩
  · rw [e]
    exact ⟨rfl, .inl ⟨hleft, rfl⟩⟩

/-- Settles O47: with the receiver idle only a command or a sender's instruction is selected, and each is a row. -/
theorem senderTransitionsAreComplete : Obligations.SenderTransitionsAreComplete := by
  intro s t hrst hrx hstep hchange
  obtain ⟨hreset, -⟩ | ⟨-, i, u, hs, he, rfl⟩ := step_cases hstep
  · simp [hrst] at hreset
  simp only [State.advance_tx, State.advance_res] at hchange ⊢
  cases hs with
  | rxAbort hst => simp [hrx, RxState.samplesAbort] at hst
  | rxEmptyPoll hst => simp [hrx, RxState.pollsByte] at hst
  | seekSentinel hst | seekOther _ hst | lenSentinel hst | lenAccept _ hst | lenOversize _ hst => simp [hrx] at hst
  | bodySentinel hst | bodyData _ hst | validate hst | acknowledge hst => simp [hrx] at hst
  | nop | receivePacket => cases he; exact absurd rfl hchange
  | sendPacket _ hst hcmd => cases he; exact .inl ⟨hst, .inl hcmd, rfl, rfl⟩
  | sendPacketSingleByte _ hst hcmd => cases he; exact .inl ⟨hst, .inr hcmd, rfl, rfl⟩
  | drain _ hst => cases he; exact .inr (.inl ⟨hst, rfl, rfl, rfl⟩)
  | sendFrame _ hst =>
    obtain ⟨b, -, ⟨-, rfl⟩ | ⟨hready, rfl⟩⟩ := execSendFrame_next he
    · exact absurd rfl hchange
    · obtain ⟨hlast, e⟩ | ⟨-, e⟩ := frameByteSent_cases b s <;> rw [e] at hchange ⊢
      · iterate 2 right
        exact .inl ⟨hst, hready, hlast, rfl, rfl, rfl⟩
      · exact absurd rfl hchange
  | txAbort _ hst ha =>
    cases he
    iterate 3 right
    exact .inl ⟨hst, ha, by simp, finish_outcome _ _⟩
  | ackOk _ hst ha hb =>
    cases he
    iterate 4 right
    exact .inl ⟨hst, ha, hb, by simp, finish_outcome _ _⟩
  | ackNotOk b _ hst ha hb hne =>
    cases he
    iterate 5 right
    exact ⟨hst, ha, .inl ⟨b, hb, hne⟩, (attemptFailed_transition (s.took b)).2⟩
  | waitAckEmptyPoll _ hst ha hnone =>
    obtain ⟨-, rfl⟩ | ⟨n, hn, rfl, rfl⟩ | ⟨n, -, -, rfl⟩ := execWaitAckEmptyPoll_next he
    · exact absurd (congrArg Sender.state s.waitPolled_tx) hchange
    · obtain ⟨hwait, hfailed⟩ := attemptFailed_transition { s.waitPolled with tx := { s.tx with wait := s.tx.wait + 1 } }
      iterate 5 right
      exact ⟨hst, ha, .inr ⟨hnone, hn, hwait⟩, by simpa using hfailed⟩
    · exact absurd rfl hchange

/-! ### Where bytes move -/

/-- Where a byte may be taken: by a polling receiver, by Drain or by WaitAck (R203). -/
def MayTake (s : State) : Prop :=
  s.rx.state.pollsByte = true ∨ (s.rx.state = .rxIdle ∧ (s.tx.state = .drain ∨ s.tx.state = .waitAck))

/-- Where the byte `b` may be sent: by Acknowledge, as the code of the verdict (45_ack_handshake.md R211), or by SendFrame, as the
frame's byte at the position (R197). -/
def MaySend (s : State) (b : Byte) : Prop :=
  (s.rx.state = .acknowledge ∧ s.ports.abort = false ∧ b = ackByte s.config s.rx.verdict) ∨
  (s.rx.state = .rxIdle ∧ s.tx.state = .sendFrame ∧ s.frame[s.tx.pos.toNat]? = some b)

/-- A step of `s` with the outputs `out` takes and sends bytes only where the rules say. -/
structure BytesInPlace (s : State) (out : Outputs) : Prop where
  taken : out.rxPop = true → MayTake s
  sent : ∀ b, out.txPush = some b → MaySend s b

theorem BytesInPlace.low (s : State) : BytesInPlace s Outputs.low := ⟨nofun, nofun⟩

theorem BytesInPlace.pulse (s : State) : BytesInPlace s Outputs.pulse := ⟨nofun, nofun⟩

theorem BytesInPlace.pop (h : MayTake s) : BytesInPlace s Outputs.pop := ⟨fun _ => h, nofun⟩

theorem BytesInPlace.push (h : MaySend s b) : BytesInPlace s (Outputs.push b) := ⟨nofun, fun _ hb => by cases hb; exact h⟩

theorem BytesInPlace.waitPolled (s : State) : BytesInPlace s s.waitPolled.io.out := by
  unfold State.waitPolled
  split
  · exact .pulse s
  · exact .low s

/-- The selected instruction moves bytes only where the rules say. -/
theorem Selects.bytesInPlace (hs : Selects s i) (he : exec i s = .next u) : BytesInPlace s u.io.out := by
  cases hs with
  | nop | receivePacket | sendPacket | sendPacketSingleByte => cases he; exact .low s
  | rxAbort | txAbort => cases he; rw [finish_io]; exact .low s
  | rxEmptyPoll => cases he; exact .pulse s
  | seekSentinel hst =>
    obtain ⟨-, hio⟩ := execSeekSentinel_next he
    rw [hio]
    exact .pop (.inl (by rw [hst]; rfl))
  | seekOther b hst | lenSentinel hst | lenAccept b hst | lenOversize b hst | bodySentinel hst =>
    cases he
    exact .pop (.inl (by rw [hst]; rfl))
  | bodyData b hst =>
    obtain ⟨-, rfl⟩ := execBodyData_next he
    exact .pop (.inl (by rw [hst]; rfl))
  | validate =>
    obtain ⟨-, rfl⟩ := execValidate_next he
    exact .low s
  | acknowledge hst ha =>
    obtain ⟨-, rfl⟩ | ⟨-, rfl⟩ := execAcknowledge_next he
    · rw [finish_io]
      exact .push (.inl ⟨hst, ha, rfl⟩)
    · exact .pulse s
  | drain hrx hst =>
    cases he
    obtain ⟨hout, -⟩ := drained_drives s
    rw [hout]
    split
    · exact .pop (.inr ⟨hrx, .inl hst⟩)
    · exact .low s
  | sendFrame hrx hst =>
    obtain ⟨b, hb, ⟨-, rfl⟩ | ⟨-, rfl⟩⟩ := execSendFrame_next he
    · exact .low s
    · rw [frameByteSent_io]
      exact .push (.inr ⟨hrx, hst, hb⟩)
  | waitAckEmptyPoll =>
    obtain ⟨-, rfl⟩ | ⟨n, -, -, rfl⟩ | ⟨n, -, -, rfl⟩ := execWaitAckEmptyPoll_next he
    · exact .waitPolled s
    · rw [attemptFailed_io]
      exact .waitPolled s
    · exact .waitPolled s
  | ackOk hrx hst => cases he; rw [finish_io]; exact .pop (.inr ⟨hrx, .inr hst⟩)
  | ackNotOk b hrx hst => cases he; rw [attemptFailed_io]; exact .pop (.inr ⟨hrx, .inr hst⟩)

/-- Settles O49: a reset moves no byte, and the selected instruction moves one only in its place. -/
theorem bytesMoveOnlyWhereTheRulesSay : Obligations.BytesMoveOnlyWhereTheRulesSay := by
  intro s t hstep
  have hplace : BytesInPlace s t.io.out := by
    obtain ⟨-, rfl⟩ | ⟨-, i, u, hs, he, rfl⟩ := step_cases hstep
    · exact .low s
    · rw [State.advance_out]
      exact hs.bytesInPlace he
  refine ⟨hplace.taken, fun b hb => (hplace.sent b hb).imp_left ?_⟩
  rintro ⟨hst, ha, rfl⟩
  exact ⟨hst, ha, fun hok => by rw [hok]; rfl, fun hfail => by rw [hfail]; rfl⟩

end Sys2Proof.Machine
end

section
/-! PROOFS. Family 44_sender_framer.md, runs: SendFrame under a transport that refuses (R198), and a whole attempt under one that
takes every byte (R195 to R201). -/

namespace Sys2Proof.Machine

open Sys2Proof

variable {s t u : State} {b : Byte} {qs rest : List Ports}

theorem OnlyEdge.trans (h : OnlyEdge s t) (h' : OnlyEdge t u) : OnlyEdge s u := by
  obtain ⟨hconfig, hrx, htx, hres, hkind⟩ := h
  obtain ⟨hconfig', hrx', htx', hres', hkind'⟩ := h'
  exact ⟨hconfig'.trans hconfig, hrx'.trans hrx, htx'.trans htx, hres'.trans hres, hkind'.trans hkind⟩

theorem OnlySender.trans (h : OnlySender s t) (h' : OnlySender t u) : OnlySender s u := by
  obtain ⟨hconfig, hrx, hres, hkind⟩ := h
  obtain ⟨hconfig', hrx', hres', hkind'⟩ := h'
  exact ⟨hconfig'.trans hconfig, hrx'.trans hrx, hres'.trans hres, hkind'.trans hkind⟩

/-! ### A transport that refuses -/

/-- A refused step of SendFrame only uses its sample up, whatever the abort flag (R197, R198). -/
theorem step_sendFrame_refused (hrst : s.ports.rst = false) (hrefused : s.ports.txReady = false) (hrx : s.rx.state = .rxIdle)
    (hst : s.tx.state = .sendFrame) (hpos : s.tx.pos.toNat < s.tx.encLen.val + 3) : step s = .next s.quiet.advance :=
  have ⟨_, hb⟩ := State.exists_frameByte hpos
  step_next hrst (decode_fetch_sendFrame hrx hst) (exec_sendFrame_refused hb hrefused)

/-- Settles O30: by induction on the samples, each refused step leaves SendFrame where it was. -/
theorem sendFrameHasNoEscape : Obligations.SendFrameHasNoEscape := by
  intro s qs
  induction qs generalizing s with
  | nil => exact fun _ _ _ _ _ hne => absurd rfl hne
  | cons q qs ih =>
    intro rest hrx hst hpos hin _ hqs
    obtain ⟨⟨hrst, hrefused⟩, hqs⟩ := List.forall_mem_cons.1 hqs
    have hq : s.ports = q := State.ports_of_inputs hin
    have hstep := step_sendFrame_refused (hq ▸ hrst) (hq ▸ hrefused) hrx hst hpos
    have hfirst : OnlyEdge s s.quiet.advance := quiet_onlyEdge s
    have hrun : Sys2Proof.core.run (qs.length + 1) s = Sys2Proof.core.run qs.length s.quiet.advance := run_succ hstep
    by_cases hnil : qs = []
    · subst hnil
      exact ⟨_, hrun, hfirst, rfl, rfl, rfl⟩
    · obtain ⟨t, ht, honly, hout, hsent, htaken⟩ := ih s.quiet.advance rest hrx hst hpos (congrArg List.tail hin) hnil hqs
      exact ⟨t, hrun.trans ht, hfirst.trans honly, hout, hsent, htaken⟩

/-! ### A transport that takes every byte -/

/-- The step of Drain starts the next attempt at position 0 and sends nothing (R195). -/
theorem step_drain (hrst : s.ports.rst = false) (hrx : s.rx.state = .rxIdle) (hst : s.tx.state = .drain) :
    ∃ t, step s = .next t ∧ OnlySender s t ∧
      t.tx = { s.tx with attempt := s.tx.attempt + 1, pos := 0, state := .sendFrame } ∧
      StepDrives (if s.ports.rxAvail then Outputs.pop else Outputs.low) [] s.tryRecv.toList s t :=
  have honly : OnlySender s s.drained := s.drained_onlyEdge.withTx s.drained.tx
  ⟨_, step_next hrst (decode_fetch_drain hrx hst) rfl, honly, rfl, (drained_drives s).advance⟩

/-- A taken step of SendFrame sends the byte at the position (R197). -/
theorem step_sendFrame_ready (hrst : s.ports.rst = false) (hready : s.ports.txReady = true) (hrx : s.rx.state = .rxIdle)
    (hst : s.tx.state = .sendFrame) (hb : s.frame[s.tx.pos.toNat]? = some b) : step s = .next (frameByteSent b s).advance :=
  step_next hrst (decode_fetch_sendFrame hrx hst) (exec_sendFrame_ready hb hready)

/-- The sender in WaitAck after its whole frame, with whatever attempts it has counted (R199). -/
def Sender.frameDone (x : Sender) : Sender :=
  { x with pos := BitVec.ofNat 4 (x.encLen.val + 3), wait := 0, state := .waitAck }

/-- The rest of the frame goes out byte by byte and leads to WaitAck, by induction on the samples (R197, R199). -/
theorem run_rest_of_frame (hrx : s.rx.state = .rxIdle) (hst : s.tx.state = .sendFrame)
    (hpos : s.tx.pos.toNat < s.tx.encLen.val + 3) (hin : s.io.inputs = qs ++ rest)
    (hlen : s.tx.pos.toNat + qs.length = s.tx.encLen.val + 3) (hqs : ∀ q ∈ qs, q.rst = false ∧ q.txReady = true) :
    ∃ t, Sys2Proof.core.run qs.length s = .next t ∧ OnlySender s t ∧ t.tx = s.tx.frameDone ∧
      t.io.sent = s.io.sent ++ s.frame.drop s.tx.pos.toNat ∧ t.io.taken = s.io.taken ∧ t.io.inputs = rest := by
  induction qs generalizing s with
  | nil => exact absurd hlen hpos.ne
  | cons q qs ih =>
    obtain ⟨⟨hrst, hready⟩, hqs⟩ := List.forall_mem_cons.1 hqs
    have hq : s.ports = q := State.ports_of_inputs hin
    have hpos' : s.tx.pos.toNat < s.frame.length := hpos.trans_eq s.frame_length.symm
    have hstep := step_sendFrame_ready (hq ▸ hrst) (hq ▸ hready) hrx hst (List.getElem?_eq_getElem hpos')
    have hrun : Sys2Proof.core.run (qs.length + 1) s = _ := run_succ hstep
    rw [List.length_cons] at hlen ⊢
    rw [hrun, List.drop_eq_getElem_cons hpos']
    obtain ⟨hlast, e⟩ | ⟨hmore, e⟩ := frameByteSent_cases s.frame[s.tx.pos.toNat] s <;> rw [e]
    · obtain rfl : qs = [] := List.eq_nil_of_length_eq_zero (by omega)
      have hdone : s.tx.pos + 1 = BitVec.ofNat 4 (s.tx.encLen.val + 3) := by
        rw [← (pos_succ_eq_iff _ _).2 hlast, BitVec.ofNat_toNat, BitVec.setWidth_eq]
      refine ⟨_, rfl, ⟨rfl, rfl, rfl, rfl⟩, ?_, ?_, rfl, congrArg List.tail hin⟩
      · rw [Sender.frameDone, ← hdone]
        rfl
      · rw [hlast, ← s.frame_length, List.drop_length]
        rfl
    · have hnext := pos_succ_toNat hpos
      have hpos₁ : (s.tx.pos + 1).toNat < s.tx.encLen.val + 3 := by omega
      have hlen₁ : (s.tx.pos + 1).toNat + qs.length = s.tx.encLen.val + 3 := by omega
      obtain ⟨t, ht, honly, htx, hsent, htaken, hint⟩ := ih
        (s := State.advance { s.pushed s.frame[s.tx.pos.toNat] with tx := { s.tx with pos := s.tx.pos + 1 } })
        hrx hst hpos₁ (congrArg List.tail hin) hlen₁ hqs
      refine ⟨t, ht, OnlySender.trans ⟨rfl, rfl, rfl, rfl⟩ honly, htx, ?_, htaken, hint⟩
      rw [hsent, State.advance_tx, hnext, State.advance_sent, State.pushed_sent, List.append_assoc]
      rfl

/-- Settles O52: Drain starts the attempt at position 0, and the whole frame is what is left to send. -/
theorem attemptHandsOverTheFrame : Obligations.AttemptHandsOverTheFrame := by
  intro s qs rest hrx hst hin hlen hqs
  obtain ⟨q, qs, rfl⟩ := List.exists_cons_of_length_pos (l := qs) (by omega)
  obtain ⟨⟨hrst, -⟩, hqs⟩ := List.forall_mem_cons.1 hqs
  have hq : s.ports = q := State.ports_of_inputs hin
  obtain ⟨u, hstep, honly, htx, -, hsent, -, hinputs, -⟩ := step_drain (hq ▸ hrst) hrx hst
  have hframe : u.frame = s.frame := by rw [State.frame, htx, State.frame]
  have hpos : u.tx.pos.toNat = 0 := by rw [htx]; rfl
  have hencLen : u.tx.encLen = s.tx.encLen := by rw [htx]
  have ⟨_, hrxu, _⟩ := honly
  rw [List.length_cons] at hlen ⊢
  obtain ⟨t, hrun, honly', htx', hsent', -⟩ := run_rest_of_frame (s := u) (rest := rest) (by rw [hrxu, hrx]) (by rw [htx])
    (by omega) (by rw [hinputs, hin]; rfl) (by rw [hpos, hencLen]; omega) hqs
  refine ⟨t, (run_succ hstep).trans hrun, by rw [htx', htx]; rfl, honly.trans honly', ?_⟩
  rw [hsent', hsent, hpos, hframe, List.append_nil, List.drop_zero]

end Sys2Proof.Machine
end

section
/-! PROOFS. Family 45_ack_handshake.md, one step: the acknowledgement byte a receive sends (R211 to R213), and how a send waits for
one (R216, R217, R219). -/

namespace Sys2Proof.Machine

open Sys2Proof

variable {s : State} {a b : Byte} {o : CmdOutcome}

/-! ### Sending the acknowledgement -/

/-- The end of a command calls nothing by itself. -/
theorem Drives.finish {u : State} {out : Outputs} {sent taken : List Byte} (o : CmdOutcome) (h : Drives out sent taken s u) :
    Drives out sent taken s (finish o u) := by
  rwa [Drives, finish_io]

/-- An instruction that offers the byte `a` ends the command with it or yields (R212, R213). -/
theorem offersAck_spec {i : Instr} (he : exec i s = .next (offerAck a o s)) :
    (s.ports.txReady = true → ∃ t, exec i s = .next t ∧ Finished o s t ∧ Drives (Outputs.push a) [a] [] s t) ∧
    (s.ports.txReady = false → ∃ t, exec i s = .next t ∧ OnlyEdge s t ∧ Drives Outputs.pulse [] [] s t) := by
  rw [he, offerAck]
  refine ⟨fun hready => ?_, fun hrefused => ?_⟩
  · rw [if_pos hready]
    exact ⟨_, rfl, finish_finished o (s.pushed a), (pushed_drives a s).finish o⟩
  · rw [if_neg (by simp [hrefused])]
    exact ⟨_, rfl, ⟨rfl, rfl, rfl, rfl, rfl⟩, yielded_drives s⟩

/-- Settles O26: Acknowledge offers the byte of the verdict, which is the one of the statement. -/
theorem acknowledgeSendsTheVerdictOnce : Obligations.AcknowledgeSendsTheVerdictOnce := by
  intro s a o h
  have he : exec .acknowledge s = .next (offerAck (ackByte s.config s.rx.verdict) (verdictOutcome s.rx.verdict) s) := rfl
  apply offersAck_spec
  obtain ⟨hverdict, rfl, rfl⟩ | ⟨hverdict, rfl, rfl⟩ := h <;> rw [he, hverdict] <;> rfl

/-- Settles O27: each of the two instructions offers its own byte. -/
theorem ackoutOffersItsCode : Obligations.AckoutOffersItsCode := by
  rintro s i a o (⟨rfl, rfl, rfl⟩ | ⟨rfl, rfl, rfl⟩) <;> exact offersAck_spec rfl

/-! ### Waiting for the acknowledgement -/

/-- An empty poll yields only if configured (R219). -/
theorem waitPolled_drives (s : State) :
    Drives (if s.config.senderAckWaitYield then Outputs.pulse else Outputs.low) [] [] s s.waitPolled := by
  rw [State.waitPolled]
  split
  · exact yielded_drives s
  · exact quiet_drives s

/-- The state after an empty poll that was counted (R218). -/
def State.pollCounted (s : State) : State := { s.waitPolled with tx := { s.tx with wait := s.tx.wait + 1 } }

theorem pollCounted_drives (s : State) :
    Drives (if s.config.senderAckWaitYield then Outputs.pulse else Outputs.low) [] [] s s.pollCounted :=
  waitPolled_drives s

/-- Without a bound the poll is not counted (R221). -/
theorem exec_waitAckEmptyPoll_unbounded (h : s.config.ackWaitPolls = none) :
    exec .waitAckEmptyPoll s = .next s.waitPolled := by
  simp [exec, execWaitAckEmptyPoll, h]

/-- A poll below the bound is counted (R218). -/
theorem exec_waitAckEmptyPoll_below {n : Nat} (h : s.config.ackWaitPolls = some n) (hwait : s.tx.wait + 1 ≠ n) :
    exec .waitAckEmptyPoll s = .next s.pollCounted := by
  simp [exec, execWaitAckEmptyPoll, h, hwait, State.pollCounted]

/-- The poll that reaches the bound fails the attempt (R218, R220). -/
theorem exec_waitAckEmptyPoll_last {n : Nat} (h : s.config.ackWaitPolls = some n) (hwait : s.tx.wait + 1 = n) :
    exec .waitAckEmptyPoll s = .next (attemptFailed s.pollCounted) := by
  simp [exec, execWaitAckEmptyPoll, h, hwait, State.pollCounted]

/-- A failed attempt calls nothing by itself. -/
theorem Drives.attemptFailed {u : State} {out : Outputs} {sent taken : List Byte} (h : Drives out sent taken s u) :
    Drives out sent taken s (attemptFailed u) := by
  rwa [Drives, attemptFailed_io]

/-- What a failed attempt makes of a state depends on its configuration and registers, not on its edge. -/
theorem attemptFailed_spec_of_onlyEdge {u : State} (h : OnlyEdge s u) : AttemptFailed s (attemptFailed u) := by
  obtain ⟨hconfig, hrx, htx, hres, hkind⟩ := h
  have hspec := attemptFailed_spec u
  rw [AttemptFailed, Finished, OnlySender] at hspec ⊢
  rwa [hconfig, hrx, htx, hres, hkind] at hspec

/-- Settles O31: without a bound the poll is all there is; with one it is counted, and the bound fails the attempt. -/
theorem emptyAckPollIsCounted : Obligations.EmptyAckPollIsCounted := by
  intro s
  cases hpolls : s.config.ackWaitPolls with
  | none => exact ⟨_, exec_waitAckEmptyPoll_unbounded hpolls, waitPolled_drives s, fun _ => s.waitPolled_onlyEdge, nofun⟩
  | some n =>
    have hcounted : OnlyEdge { s with tx := { s.tx with wait := s.tx.wait + 1 } } s.pollCounted := by
      obtain ⟨hconfig, hrx, -, hres, hkind⟩ := s.waitPolled_onlyEdge
      exact ⟨hconfig, hrx, rfl, hres, hkind⟩
    by_cases hwait : s.tx.wait + 1 = n
    · refine ⟨_, exec_waitAckEmptyPoll_last hpolls hwait, (pollCounted_drives s).attemptFailed, nofun, ?_⟩
      rintro _ ⟨⟩
      exact ⟨fun hne => absurd hwait hne, fun _ => attemptFailed_spec_of_onlyEdge hcounted⟩
    · refine ⟨_, exec_waitAckEmptyPoll_below hpolls hwait, pollCounted_drives s, nofun, ?_⟩
      rintro _ ⟨⟩
      exact ⟨fun _ => ⟨rfl, s.waitPolled_onlyEdge.withTx _⟩, fun heq => absurd heq hwait⟩

/-- The byte `ACK_OK` is taken, then the command ends (R216). -/
theorem finish_took_spec (o : CmdOutcome) (b : Byte) (s : State) :
    Finished o s (finish o (s.took b)) ∧ Drives Outputs.pop [] [b] s (finish o (s.took b)) :=
  ⟨finish_finished o (s.took b), (took_drives b s).finish o⟩

/-- Any other byte is taken, then the attempt fails (R217). -/
theorem attemptFailed_took_spec (b : Byte) (s : State) :
    AttemptFailed s (attemptFailed (s.took b)) ∧ Drives Outputs.pop [] [b] s (attemptFailed (s.took b)) :=
  ⟨attemptFailed_spec (s.took b), (took_drives b s).attemptFailed⟩

/-- Settles O32: the two instructions, and the byte that selects the one or the other. -/
theorem acknowledgementDecidesTheAttempt : Obligations.AcknowledgementDecidesTheAttempt := by
  refine fun s => ⟨⟨_, rfl, finish_took_spec .ok _ s⟩, fun b => ⟨_, rfl, attemptFailed_took_spec b s⟩, ?_⟩
  intro hrx hst hrst ha hav
  have hdecode := decode_fetch_txByte hrx hst ha (State.tryRecv_eq_some.2 ⟨hav, rfl⟩)
  refine ⟨fun hok => ?_, fun hother => ?_⟩
  · rw [if_pos hok] at hdecode
    obtain ⟨hfinished, hdrives⟩ := finish_took_spec .ok s.config.ackOk s
    exact ⟨_, step_next hrst hdecode rfl, hfinished, hok ▸ hdrives.advance⟩
  · rw [if_neg hother] at hdecode
    obtain ⟨hfailed, hdrives⟩ := attemptFailed_took_spec s.ports.rxData s
    exact ⟨_, step_next hrst hdecode rfl, hfailed, hdrives.advance⟩

end Sys2Proof.Machine
end

section
/-! PROOFS. Family 45_ack_handshake.md, runs: a send command on a silent link uses up all its attempts (R226).  Its steps are
counted down: in every phase the registers say how many steps are left and which bytes are still to be sent. -/

namespace Sys2Proof.Machine

open Sys2Proof

variable {s t : State} {n m k : Nat} {F bytes : List Byte} {qs rest : List Ports}

/-! ### The countdown -/

/-- The steps of one attempt on a silent link: Drain, the frame `F`, and `n` empty polls (R226). -/
def attemptSteps (n : Nat) (F : List Byte) : Nat := 1 + F.length + n

/-- The bytes of `k` attempts, each of which sends the frame `F` once. -/
def repeated (k : Nat) (F : List Byte) : List Byte := (List.replicate k F).flatten

theorem repeated_succ (k : Nat) (F : List Byte) : repeated (k + 1) F = F ++ repeated k F := rfl

/-- A state whose sender has the frame `F` to send and waits at most `n` polls for its acknowledgement, with the receiver idle. -/
structure BoundedSend (n : Nat) (F : List Byte) (s : State) : Prop where
  polls : s.config.ackWaitPolls = some n
  pollsPos : 0 < n
  rxIdle : s.rx.state = .rxIdle
  frame : s.frame = F

/-- The sender's registers `x` and the results `r` of a send that has `m` steps left on a silent link and still has the listed
bytes to send; `k` counts the attempts not yet started. -/
inductive RetryPhase (n : Nat) (F : List Byte) (c : Config) (x : Sender) (r : Result) (m : Nat) : List Byte → Prop where
  | drain (k : Nat) (hst : x.state = .drain) (hattempts : x.attempt + (k + 1) = c.maxSendAttempts)
      (hm : m = (k + 1) * attemptSteps n F) : RetryPhase n F c x r m (repeated (k + 1) F)
  | sendFrame (k : Nat) (hst : x.state = .sendFrame) (hattempts : x.attempt + k = c.maxSendAttempts)
      (hpos : x.pos.toNat < F.length) (hm : m + x.pos.toNat = F.length + n + k * attemptSteps n F) :
      RetryPhase n F c x r m (F.drop x.pos.toNat ++ repeated k F)
  | waitAck (k : Nat) (hst : x.state = .waitAck) (hattempts : x.attempt + k = c.maxSendAttempts)
      (hwait : x.wait < n) (hm : m + x.wait = n + k * attemptSteps n F) : RetryPhase n F c x r m (repeated k F)
  | failed (hst : x.state = .txIdle) (hattempts : x.attempt = c.maxSendAttempts) (hdone : r.done = true)
      (houtcome : r.outcome = .sendFailed) (hvalid : r.pktValid = false) (hm : m = 0) : RetryPhase n F c x r m []

/-- `s` is in a phase of such a send. -/
structure Retrying (n : Nat) (F : List Byte) (m : Nat) (bytes : List Byte) (s : State) : Prop extends BoundedSend n F s where
  phase : RetryPhase n F s.config s.tx s.res m bytes

/-- As long as steps are left, the send runs. -/
theorem Retrying.busy (h : Retrying n F (m + 1) bytes s) : s.busy = true := by
  apply State.busy_of_tx
  cases h.phase with
  | drain _ hst | sendFrame _ hst | waitAck _ hst => simp [hst]
  | failed _ _ _ _ _ hm => cases hm

/-- With no step left the command has ended SendFailed, with all attempts used. -/
theorem Retrying.failed (h : Retrying n F 0 bytes s) :
    bytes = [] ∧ s.busy = false ∧ s.tx.attempt = s.config.maxSendAttempts ∧ s.res.done = true ∧
      s.res.outcome = .sendFailed ∧ s.res.pktValid = false := by
  cases h.phase with
  | drain k _ _ hm =>
    have : 0 < (k + 1) * attemptSteps n F := Nat.mul_pos k.succ_pos (by simp [attemptSteps])
    omega
  | sendFrame | waitAck => omega
  | failed hst hattempts hdone houtcome hvalid =>
    exact ⟨rfl, State.not_busy_iff.2 ⟨h.rxIdle, hst⟩, hattempts, hdone, houtcome, hvalid⟩

/-! ### A step on a silent link -/

/-- The step from `s` takes nothing and is one of the steps left; what it sends is no longer to be sent. -/
def CountsDown (n : Nat) (F : List Byte) (m : Nat) (bytes : List Byte) (s : State) : Prop :=
  ∃ t out sent left, step s = .next t ∧ StepDrives out sent [] s t ∧ bytes = sent ++ left ∧ Retrying n F m left t

theorem countsDown_of_exec {i : Instr} {u : State} {out : Outputs} {sent left : List Byte} (hrst : s.ports.rst = false)
    (hdecode : decode s.config s.fetch = .ok i) (he : exec i s = .next u) (hdrives : Drives out sent [] s u)
    (hbytes : bytes = sent ++ left) (h : Retrying n F m left u) : CountsDown n F m bytes s :=
  ⟨_, out, sent, left, step_next hrst hdecode he, hdrives.advance, hbytes, { h with }⟩

/-- Drain starts one of the attempts that are left (R195). -/
theorem countsDown_drain (h : BoundedSend n F s) (hq : s.ports.silent) (hst : s.tx.state = .drain)
    (hattempts : s.tx.attempt + (k + 1) = s.config.maxSendAttempts) (hm : m + 1 = (k + 1) * attemptSteps n F) :
    CountsDown n F m (repeated (k + 1) F) s := by
  obtain ⟨hrst, -, hav, -⟩ := hq
  obtain ⟨hpolls, hn, hrx, rfl⟩ := h
  have he : exec .drain s =
      .next { s.quiet with tx := { s.tx with attempt := s.tx.attempt + 1, pos := 0, state := .sendFrame } } := by
    rw [← drained_of_not_rxAvail hav]
    rfl
  have hattempts' : s.tx.attempt + 1 + k = s.config.maxSendAttempts := by omega
  have hm' : m + 0 = s.frame.length + n + k * attemptSteps n s.frame := by
    rw [Nat.succ_mul, attemptSteps] at hm
    rw [attemptSteps]
    omega
  exact countsDown_of_exec (sent := []) (left := s.frame ++ repeated k s.frame) hrst (decode_fetch_drain hrx hst) he
    (quiet_drives s) (repeated_succ k s.frame) ⟨⟨hpolls, hn, hrx, rfl⟩, .sendFrame k rfl hattempts' (by simp) hm'⟩

/-- SendFrame sends the next byte of the frame, and the last one starts the wait (R197, R199). -/
theorem countsDown_sendFrame (h : BoundedSend n F s) (hq : s.ports.silent) (hst : s.tx.state = .sendFrame)
    (hattempts : s.tx.attempt + k = s.config.maxSendAttempts) (hpos : s.tx.pos.toNat < F.length)
    (hm : m + 1 + s.tx.pos.toNat = F.length + n + k * attemptSteps n F) :
    CountsDown n F m (F.drop s.tx.pos.toNat ++ repeated k F) s := by
  obtain ⟨hrst, -, -, hready⟩ := hq
  obtain ⟨hpolls, hn, hrx, rfl⟩ := h
  have hnext : (s.tx.pos + 1).toNat = s.tx.pos.toNat + 1 := pos_succ_toNat (hpos.trans_eq s.frame_length)
  have hb := List.getElem?_eq_getElem hpos
  have hdrives := frameByteSent_drives s.frame[s.tx.pos.toNat] s
  refine countsDown_of_exec hrst (decode_fetch_sendFrame hrx hst) (exec_sendFrame_ready hb hready) hdrives
    (left := s.frame.drop (s.tx.pos + 1).toNat ++ repeated k s.frame) (by rw [hnext, List.drop_eq_getElem_cons hpos]; rfl) ?_
  obtain ⟨hlast, e⟩ | ⟨hmore, e⟩ := frameByteSent_cases s.frame[s.tx.pos.toNat] s <;> rw [e]
  · rw [← s.frame_length] at hlast
    rw [hnext, hlast, List.drop_length]
    exact ⟨⟨hpolls, hn, hrx, rfl⟩, .waitAck k rfl hattempts hn (by simp only; omega)⟩
  · rw [← s.frame_length] at hmore
    exact ⟨⟨hpolls, hn, hrx, rfl⟩, .sendFrame k hst hattempts (by simp only; omega) (by simp only; omega)⟩

/-- An attempt that fails with `k` attempts left starts the next one or ends the command (R220). -/
theorem retrying_attemptFailed (h : BoundedSend n F s) (hattempts : s.tx.attempt + k = s.config.maxSendAttempts)
    (hm : m = k * attemptSteps n F) : Retrying n F m (repeated k F) (attemptFailed s) := by
  obtain ⟨hpolls, hn, hrx, rfl⟩ := h
  obtain ⟨hlast, e⟩ | ⟨hleft, e⟩ := attemptFailed_cases s <;> rw [e]
  · obtain rfl : k = 0 := by omega
    have hframe : (finish .sendFailed s).frame = s.frame := by rw [State.frame, finish_tx, State.frame]
    have ⟨_, _, _, hinvalid, _⟩ := finish_finished .sendFailed s
    refine ⟨⟨by simp [hpolls], hn, by simp, hframe⟩, ?_⟩
    exact .failed (by simp) (by simp [hlast]) (by simp) (by simp) (hinvalid nofun).2 (by simp [hm])
  · obtain ⟨k, rfl⟩ := Nat.exists_eq_succ_of_ne_zero (n := k) (by omega)
    exact ⟨⟨hpolls, hn, hrx, rfl⟩, .drain k rfl hattempts hm⟩

/-- WaitAck polls in vain, and the last of its polls fails the attempt (R218). -/
theorem countsDown_waitAck (h : BoundedSend n F s) (hq : s.ports.silent) (hst : s.tx.state = .waitAck)
    (hattempts : s.tx.attempt + k = s.config.maxSendAttempts) (hwait : s.tx.wait < n)
    (hm : m + 1 + s.tx.wait = n + k * attemptSteps n F) : CountsDown n F m (repeated k F) s := by
  obtain ⟨hrst, ha, hav, -⟩ := hq
  obtain ⟨hpolls, hn, hrx, rfl⟩ := h
  have hdecode := decode_fetch_waitAckEmptyPoll hrx hst ha (State.tryRecv_eq_none.2 hav)
  have hcounted : BoundedSend n s.frame s.pollCounted := by
    obtain ⟨hconfig, hrxEq, -⟩ := s.waitPolled_onlyEdge
    exact ⟨(congrArg Config.ackWaitPolls hconfig).trans hpolls, hn, (congrArg Receiver.state hrxEq).trans hrx, rfl⟩
  have hattempts' : s.pollCounted.tx.attempt + k = s.pollCounted.config.maxSendAttempts :=
    hattempts.trans (congrArg Config.maxSendAttempts s.waitPolled_config.symm)
  by_cases hlast : s.tx.wait + 1 = n
  · exact countsDown_of_exec (sent := []) hrst hdecode (exec_waitAckEmptyPoll_last hpolls hlast)
      (pollCounted_drives s).attemptFailed rfl (retrying_attemptFailed hcounted hattempts' (by omega))
  · have hwait' : s.pollCounted.tx.wait = s.tx.wait + 1 := rfl
    exact countsDown_of_exec (sent := []) hrst hdecode (exec_waitAckEmptyPoll_below hpolls hlast) (pollCounted_drives s) rfl
      ⟨hcounted, .waitAck k hst hattempts' (by omega) (by omega)⟩

/-- In whatever phase a step is left, the next step is it. -/
theorem Retrying.countsDown (h : Retrying n F (m + 1) bytes s) (hq : s.ports.silent) : CountsDown n F m bytes s := by
  cases h.phase with
  | drain k hst hattempts hm => exact countsDown_drain h.toBoundedSend hq hst hattempts hm
  | sendFrame k hst hattempts hpos hm => exact countsDown_sendFrame h.toBoundedSend hq hst hattempts hpos hm
  | waitAck k hst hattempts hwait hm => exact countsDown_waitAck h.toBoundedSend hq hst hattempts hwait hm
  | failed _ _ _ _ _ hm => cases hm

/-! ### The whole command -/

/-- The steps left are taken and no more, by induction on their samples; what was to be sent is sent. -/
theorem Retrying.run (h : Retrying n F qs.length bytes s) (hin : s.io.inputs = qs ++ rest) (hqs : ∀ q ∈ qs, Ports.silent q) :
    (∃ t, Sys2Proof.core.run qs.length s = .next t ∧ Retrying n F 0 [] t ∧ t.config = s.config ∧
      t.io.sent = s.io.sent ++ bytes ∧ t.io.taken = s.io.taken) ∧
    ∀ k < qs.length, ∃ u, Sys2Proof.core.run k s = .next u ∧ u.busy = true := by
  induction qs generalizing s bytes with
  | nil =>
    obtain ⟨rfl, -⟩ := h.failed
    exact ⟨⟨s, run_zero s, h, rfl, (List.append_nil _).symm, rfl⟩, nofun⟩
  | cons q qs ih =>
    obtain ⟨hq, hqs⟩ := List.forall_mem_cons.1 hqs
    rw [← State.ports_of_inputs hin] at hq
    obtain ⟨t, out, sent, left, hstep, ⟨-, hsent, htaken, hinputs, -⟩, rfl, ht⟩ := h.countsDown hq
    obtain ⟨⟨v, hrun, hv, hconfig, hsent', htaken'⟩, hbusy⟩ := ih ht (by rw [hinputs, hin]; rfl) hqs
    refine ⟨⟨v, (run_succ hstep).trans hrun, hv, ?_, ?_, ?_⟩, fun k hk => ?_⟩
    · exact hconfig.trans (noStepChangesTheConfiguration s t hstep)
    · rw [hsent', hsent, List.append_assoc]
    · rw [htaken', htaken, List.append_nil]
    · cases k with
      | zero => exact ⟨s, run_zero s, h.busy⟩
      | succ k =>
        obtain ⟨u, hu, hbusyu⟩ := hbusy k (Nat.lt_of_succ_lt_succ hk)
        exact ⟨u, (run_succ hstep).trans hu, hbusyu⟩

/-- Settles O53: before the first attempt all attempts are left; after the last step the send has failed. -/
theorem retryExhaustionTakesExactlyItsSteps : Obligations.RetryExhaustionTakesExactlyItsSteps := by
  intro s n qs rest hwf hpolls hrx hst hattempt hin hqs hlen
  obtain ⟨-, -, hattempts, -, hpollsPos⟩ := wf_facts hwf
  obtain ⟨k, hk⟩ := Nat.exists_eq_succ_of_ne_zero (Nat.ne_of_gt hattempts)
  have hlen' : qs.length = (k + 1) * attemptSteps n s.frame := by rw [hlen, hk, attemptSteps, s.frame_length]
  have h : Retrying n s.frame qs.length (repeated (k + 1) s.frame) s :=
    ⟨⟨hpolls, hpollsPos n hpolls, hrx, rfl⟩, .drain k hst (by omega) hlen'⟩
  obtain ⟨⟨t, hrun, ht, hconfig, hsent, htaken⟩, hbusy⟩ := h.run hin hqs
  obtain ⟨-, hidle, hattempt, hdone, houtcome, hvalid⟩ := ht.failed
  refine ⟨⟨t, hrun, hidle, hdone, houtcome, hvalid, hconfig ▸ hattempt, ?_, htaken⟩, hbusy⟩
  rw [hsent, hk, repeated]

end Sys2Proof.Machine
end

section
/-! PROOFS. Family 60_exceptions.md: the order of the events of a step (R251), the steps that do not sample the abort signal (R250),
and the abort in the receiver (R248) and in the sender (R249). -/

namespace Sys2Proof.Machine

open Sys2Proof

variable {s t : State} {i : Instr}

/-! ### The order of events -/

/-- Settles O8: one fact about the fetched word for each situation. -/
theorem eventsAreTakenInOrder : Obligations.EventsAreTakenInOrder := fun _ =>
  ⟨step_of_rst, decode_fetch_rxAbort, decode_fetch_txAbort, decode_fetch_validate, decode_fetch_drain, decode_fetch_sendFrame,
    fun ha => ⟨
      fun hpoll hav => decode_fetch_rxEmptyPoll hpoll ha (State.tryRecv_eq_none.2 hav),
      fun hpoll hav => decode_fetch_rxByte hpoll ha (State.tryRecv_eq_some.2 ⟨hav, rfl⟩),
      fun hst => decode_fetch_acknowledge hst ha,
      fun hrx hst hav => decode_fetch_waitAckEmptyPoll hrx hst ha (State.tryRecv_eq_none.2 hav),
      fun hrx hst hav => decode_fetch_txByte hrx hst ha (State.tryRecv_eq_some.2 ⟨hav, rfl⟩)⟩⟩

/-! ### The steps that do not sample the abort -/

/-- Outside the sampling states the decoder reads nothing of the port sample but the command port (R250). -/
theorem decode_fetch_eq_of_unsampled {l : List Ports} (hcmd : (withInputs l s).ports.cmd = s.ports.cmd)
    (hops : (withInputs l s).ports.operands = s.ports.operands)
    (hst : s.rx.state = .validate ∨
      s.rx.state = .rxIdle ∧ (s.tx.state = .txIdle ∨ s.tx.state = .drain ∨ s.tx.state = .sendFrame)) :
    decode s.config s.fetch = decode s.config (withInputs l s).fetch := by
  obtain hst | ⟨hrx, htx | htx | htx⟩ := hst
  · exact (decode_fetch_validate hst).trans (decode_fetch_validate (s := withInputs l s) hst).symm
  · rw [decode_fetch_idle hrx htx, ← hcmd, ← hops]
    exact (decode_fetch_idle (s := withInputs l s) hrx htx).symm
  · exact (decode_fetch_drain hrx htx).trans (decode_fetch_drain (s := withInputs l s) hrx htx).symm
  · exact (decode_fetch_sendFrame hrx htx).trans (decode_fetch_sendFrame (s := withInputs l s) hrx htx).symm

/-- Settles O11: the samples agree on reset, on the transport's answers and on the command port. -/
theorem abortIsNotSampledOutsidePolling : Obligations.AbortIsNotSampledOutsidePolling := by
  intro s p rest a hin hst
  refine step_eq_of_samples { p with abort := a } hin rfl fun hrst => ⟨rfl, rfl, rfl, ?_⟩
  have hp : s.ports = p := State.ports_of_inputs hin
  have hunsampled := hst.resolve_left (by simp [hrst])
  exact decode_fetch_eq_of_unsampled (by rw [hp]; rfl) (by rw [hp]; rfl) hunsampled

/-! ### The abort -/

/-- The outcome Reset delivers no Packet (R253). -/
theorem Finished.reset_pktValid (h : Finished .reset s t) : t.res.pktValid = false := by
  obtain ⟨-, -, -, hkeeps, -⟩ := h
  exact (hkeeps nofun).2

/-- A step whose instruction is `finish(Reset)` is that and nothing else (R248, R249). -/
theorem step_of_abort (hrst : s.ports.rst = false) (hdecode : decode s.config s.fetch = .ok i)
    (he : exec i s = .next (finish .reset s.quiet)) :
    ∃ t, step s = .next t ∧ Finished .reset s t ∧ StepDrives Outputs.low [] [] s t := by
  obtain ⟨hfinished, hdrives⟩ := finish_quiet_spec .reset s
  exact ⟨_, step_next hrst hdecode he, hfinished, hdrives.advance⟩

/-- Settles O23: each of the four states samples the abort, and RX.ABORT is `finish(Reset)`. -/
theorem abortEndsTheReceive : Obligations.AbortEndsTheReceive := by
  intro s
  refine ⟨fun _ => ⟨_, rfl, finish_quiet_spec .reset s⟩, fun hst hrst ha => ?_⟩
  have hsamples : s.rx.state.samplesAbort = true := by
    obtain h | h | h | h := hst <;> rw [h] <;> rfl
  obtain ⟨t, hstep, hfinished, hdrives⟩ := step_of_abort hrst (decode_fetch_rxAbort hsamples ha) rfl
  exact ⟨t, hstep, hfinished, hfinished.reset_pktValid, hdrives⟩

/-- Settles O33: TX.ABORT is `finish(Reset)`, which writes no sender register but the state. -/
theorem abortEndsTheSend : Obligations.AbortEndsTheSend := by
  intro s
  refine ⟨⟨_, rfl, finish_quiet_spec .reset s⟩, fun hrx hst hrst ha => ?_⟩
  obtain ⟨t, hstep, hfinished, hdrives⟩ := step_of_abort hrst (decode_fetch_txAbort hrx hst ha) rfl
  have ⟨_, _, _, _, _, htx, _⟩ := hfinished
  exact ⟨t, hstep, hfinished, by rw [htx], by rw [htx], hdrives⟩

end Sys2Proof.Machine
end
